-- ==== Sys2Proof/Word.lean ====
section
/-! DEFINITION. The word types of the core: a 32-bit word (00_scope.md R5), a byte, a 7-bit word
address (R6) and a block of four words (R11). -/

namespace Sys2Proof

/-- The unit of key, state and schedule (R5). -/
abbrev Word := BitVec 32

/-- One byte of a word; also an element of GF(2^8) (R120). -/
abbrev Byte := BitVec 8

/-- A word address of the register space, 0x00 to 0x7F (R50). -/
abbrev Addr := BitVec 7

/-- Four words; word c is column c (R11). -/
abbrev Block := Vector Word 4

end Sys2Proof
end

