-- ==== Sys2Proof/Config.lean ====
section
/-! DEFINITION. What the spec leaves open: the free values of the model. None has a body, so nothing
can be proved of its value and every claim holds for all of them. -/

namespace Sys2Proof

/-- W_RESET (10_state.md R42): the contents of W after the n-th free choice, "any function from
0..59 to 32-bit words", chosen afresh at each reset (70_reset_and_hazards.md R220). Log entry 1. -/
opaque Config.wReset : Nat → Fin 60 → Word

/-- T_RESET (10_state.md R42), as `Config.wReset`. Log entry 1. -/
opaque Config.tReset : Nat → Fin 60 → Word

/-- What `rdata` carries in a host cycle for which the spec states no value (a WR cycle): a free
value. Log entry 3. -/
opaque Config.undrivenRdata : Nat → Word

end Sys2Proof
end

