-- ==== Sys2Proof/Syntax.lean ====
section
/-! DEFINITION. The operations: one constructor for each row of spec/opcode_table.json, in the table's
order, and the encoded things (30_encoding.md R80) they are read from. -/

namespace Sys2Proof

/-- The 17 rows of the opcode table (30_encoding.md R95). -/
inductive Instr where
  /-- PORT `0waaaaaaa`: no host operation; `we` and `addr` are ignored (R81). -/
  | idle (we : Bool) (addr : Addr)
  /-- PORT `10aaaaaaa`: host read (45_commands.md R180). -/
  | rd (addr : Addr)
  /-- PORT `11aaaaaaa` and the bus `wdata`: host write (R181). -/
  | wr (addr : Addr) (wdata : Word)
  /-- CTRL word 0x00000000 (R183). -/
  | nop
  /-- CTRL word `0x00000001 + 16*ks` (43_key_schedule.md R143). -/
  | expand (ks : BitVec 2)
  /-- CTRL word 0x00000002 (44_round_driver.md R163). -/
  | encrypt
  /-- CTRL word 0x00000003 (R164). -/
  | decrypt
  /-- CTRL word 0x00000004 (43_key_schedule.md R147). -/
  | invsched
  /-- SSEL 0 (30_encoding.md R90). -/
  | hold
  /-- SSEL 1: its operands are the pins `addr` and `wdata`. -/
  | hostwr
  /-- SSEL 2. -/
  | init
  /-- SSEL 3. -/
  | full
  /-- SSEL 4. -/
  | last
  /-- KSEL 0 (30_encoding.md R91). -/
  | keycopy
  /-- KSEL 1. -/
  | plain
  /-- KSEL 2. -/
  | rotsub
  /-- KSEL 3. -/
  | subonly
deriving DecidableEq, Repr

/-- The five operations a CTRL word can name (30_encoding.md R83). -/
inductive Command where
  | nop
  | expand (ks : BitVec 2)
  | encrypt
  | decrypt
  | invsched
deriving DecidableEq, Repr

/-- The select of the round-state multiplexer (30_encoding.md R90), as an enumeration (R80). -/
inductive Ssel where
  | hold
  | hostwr
  | init
  | full
  | last
deriving DecidableEq, Repr

/-- The select of the key-expander word multiplexer (30_encoding.md R91), as an enumeration. -/
inductive Ksel where
  | keycopy
  | plain
  | rotsub
  | subonly
deriving DecidableEq, Repr

/-- An encoded thing: the four formats of R80 that name an operation. -/
inductive Code where
  /-- `sel`, `we`, `addr[6:0]` from bit 8 down, and the separate bus `wdata` (R81). -/
  | port (code : BitVec 9) (wdata : Word)
  /-- The word written to address 0x00 (R82). -/
  | ctrl (word : Word)
  /-- R90. -/
  | ssel (sel : BitVec 3)
  /-- R91. -/
  | ksel (sel : BitVec 2)
deriving DecidableEq, Repr

end Sys2Proof
end

