-- ==== Sys2Proof/Machine/State.lean ====
section
/-! DEFINITION. The state of the core (10_state.md R20), the input and output pins (30_encoding.md R81),
the pending interleaving (20_memory.md R62), and the state after reset (R41 to R43). -/

namespace Sys2Proof.Machine

/-- NK, the latched key-size code (R26): 0, 1, 2. Code 3 "is never held" (30_encoding.md R86). -/
inductive KeySize where
  /-- code 0, Nk = 4 -/
  | k128
  /-- code 1, Nk = 6 -/
  | k192
  /-- code 2, Nk = 8 -/
  | k256
deriving DecidableEq, Repr

/-- OP, the operation in progress (R27, 30_encoding.md R89). -/
inductive Op where
  | idle
  | expand
  | cipher
  | invsched
deriving DecidableEq, Repr

/-- PH, the phase of INVSCHED (R27). -/
inductive Phase where
  | compute
  | copy
deriving DecidableEq, Repr

/-- DIR, the direction of a cipher operation (R27). -/
inductive Dir where
  | forward
  | inverse
deriving DecidableEq, Repr

/-- TAG, the kind of schedule W holds (R28). -/
inductive Tag where
  | none
  | fwd
  | inv
deriving DecidableEq, Repr

/-- The causes of a refusal (60_exceptions.md R201). The core records them and goes on: a refusal of
the CORE is a next state, never a fault of the model. -/
inductive Cause where
  /-- code 1: a write while BUSY (R202) -/
  | busyViolation
  /-- code 2: a malformed CTRL word (R203) -/
  | illegalCmd
  /-- code 3: EXPAND with KS = 3 (R204) -/
  | illegalKeysize
  /-- code 4: a command with the wrong TAG (R205) -/
  | schedMismatch
  /-- code 5: a write to an address that is not writable (R206) -/
  | badAccess
deriving DecidableEq, Repr

/-- The input pins in one host cycle (30_encoding.md R81). -/
structure Pins where
  rst : Bool
  sel : Bool
  we : Bool
  addr : Addr
  wdata : Word
deriving DecidableEq, Repr

/-- The pins of a cycle in which the HOST does nothing. -/
def Pins.quiet : Pins := ⟨false, false, false, 0, 0⟩

/-- One event of the total order of R62: a host cycle, or a turn of the CORE. -/
inductive Event where
  | host (p : Pins)
  | core
deriving DecidableEq, Repr

/-- The whole state. -/
structure State where
  /-- KEY (R21) -/
  key : Vector Word 8
  /-- S, read and written by the HOST as BLOCK0 to BLOCK3 (R22) -/
  blk : Block
  /-- W, the schedule memory (R23) -/
  w : Vector Word 60
  /-- T, the scratch buffer (R24) -/
  t : Vector Word 60
  /-- RC, 4 bits, 0 to 14 (R25) -/
  rc : Fin 15
  /-- NK (R26) -/
  nk : KeySize
  /-- OP (R27) -/
  op : Op
  /-- KI, 6 bits, 0 to 59 (R27) -/
  ki : Fin 60
  /-- PH (R27) -/
  ph : Phase
  /-- DIR (R27) -/
  dir : Dir
  /-- TAG (R28) -/
  tag : Tag
  /-- BUSY (R29) -/
  busy : Bool
  /-- DONE (R29) -/
  done : Bool
  /-- ERR (R30) -/
  err : Bool
  /-- ERRCODE (R30); `none` is code 0 -/
  errcode : Option Cause
  /-- the input pins of the current host cycle (30_encoding.md R81) -/
  pins : Pins
  /-- the output pin `rdata` in the current host cycle (R81) -/
  rdata : Word
  /-- the model's own: the events still to come, the next one first (log entry 5) -/
  pending : List Event
  /-- the model's own: how many free values have been taken (log entry 2) -/
  fresh : Nat
deriving DecidableEq, Repr

/-- No behaviour of this core is a fault: "there is no fault mechanism other than the refusal"
(93_implementation_defined.md), and a refusal of the core is a next state (60_exceptions.md R200).
The type is empty, so no step can answer one. -/
inductive Fault where
deriving DecidableEq, Repr

/-- Why the model gives an instruction no meaning. -/
inductive Refusal where
  /-- Raised by an arm of `exec` whose instruction has no meaning yet; safe. No arm of this model is
  one: all 17 rows have their meaning. -/
  | notModelled (mnemonic : String)
deriving DecidableEq, Repr

/-- The state after a reset that takes the `n`-th free contents of W and T (R41, R42, R43). -/
def State.resetWith (n : Nat) : State where
  key := Vector.replicate 8 0
  blk := Vector.replicate 4 0
  w := Vector.ofFn (Config.wReset n)
  t := Vector.ofFn (Config.tReset n)
  rc := 0
  nk := .k128
  op := .idle
  ki := 0
  ph := .compute
  dir := .forward
  tag := .none
  busy := false
  done := false
  err := false
  errcode := none
  pins := .quiet
  rdata := 0
  pending := []
  fresh := n

/-- The machine right after the first reset (70_reset_and_hazards.md R221, R222). -/
def State.reset : State := State.resetWith 0

end Sys2Proof.Machine
end

