-- ==== Sys2Proof/Machine/Operands.lean ====
section
/-! DEFINITION. The operand forms: bytes of a word, the numbers a key size stands for, the register map,
and the byte sequences of a block and of a key. -/

namespace Sys2Proof.Machine

/-! ### Bytes of a word -/

/-- `byte(v, j) = v[8j+7:8j]` (00_scope.md R10). -/
def byteAt (v : Word) (j : Nat) : Byte := v.extractLsb' (8 * j) 8

/-- `word(b0, b1, b2, b3)`: byte j is bj (R10). -/
def wordOf (b0 b1 b2 b3 : Byte) : Word := b3 ++ b2 ++ b1 ++ b0

/-- `ROTR32(v, n)` (R10). -/
def rotr32 (v : Word) (n : Nat) : Word := v.rotateRight n

/-! ### The key size (30_encoding.md R85) -/

/-- The 2-bit code of NK and KS. -/
def KeySize.code : KeySize → BitVec 2
  | .k128 => 0
  | .k192 => 1
  | .k256 => 2

/-- The key size a KS code names; 3 names none. -/
def KeySize.ofCode (ks : BitVec 2) : Option KeySize :=
  match ks.toNat with
  | 0 => some .k128
  | 1 => some .k192
  | 2 => some .k256
  | _ => none

/-- `Nk = 4 + 2*code`, in words. -/
def KeySize.nk (k : KeySize) : Nat := 4 + 2 * k.code.toNat

/-- `Nr = Nk + 6`, in rounds. -/
def KeySize.nr (k : KeySize) : Nat := k.nk + 6

/-- `LAST = 4*(Nr+1) - 1`, the last word index of the schedule. -/
def KeySize.last (k : KeySize) : Nat := 4 * (k.nr + 1) - 1

/-! ### The remaining codes -/

/-- OP's code (30_encoding.md R89). -/
def Op.code : Op → BitVec 3
  | .idle => 0
  | .expand => 1
  | .cipher => 2
  | .invsched => 4

/-- TAG's code (10_state.md R28). -/
def Tag.code : Tag → BitVec 2
  | .none => 0
  | .fwd => 1
  | .inv => 2

/-- DIR's bit, which is CMD[0] of the cipher commands (30_encoding.md R83). -/
def Dir.code : Dir → BitVec 1
  | .forward => 0
  | .inverse => 1

/-- PH's bit (10_state.md R27). -/
def Phase.code : Phase → BitVec 1
  | .compute => 0
  | .copy => 1

/-- A cause's code (30_encoding.md R88). -/
def Cause.code : Cause → BitVec 3
  | .busyViolation => 1
  | .illegalCmd => 2
  | .illegalKeysize => 3
  | .schedMismatch => 4
  | .badAccess => 5

/-- ERRCODE's value: 0 while nothing was refused. -/
def errcodeBits : Option Cause → BitVec 3
  | none => 0
  | some c => c.code

/-! ### The register map (20_memory.md R51) -/

/-- What a word address names. -/
inductive Target where
  /-- 0x00 -/
  | ctrl
  /-- 0x01 -/
  | status
  /-- 0x04 + c is `S[c]` -/
  | block (c : Fin 4)
  /-- 0x08 + i is `KEY[i]` -/
  | key (i : Fin 8)
  /-- 0x40 + i is `W[i]` -/
  | sched (i : Fin 60)
  /-- 0x02, 0x03, 0x10 to 0x3F, 0x7C to 0x7F -/
  | reserved
deriving DecidableEq, Repr

/-- The register map. -/
def target (a : Addr) : Target :=
  let n := a.toNat
  if n = 0x00 then .ctrl
  else if n = 0x01 then .status
  else if h : 0x04 ≤ n ∧ n ≤ 0x07 then .block ⟨n - 0x04, by omega⟩
  else if h : 0x08 ≤ n ∧ n ≤ 0x0F then .key ⟨n - 0x08, by omega⟩
  else if h : 0x40 ≤ n ∧ n ≤ 0x7B then .sched ⟨n - 0x40, by omega⟩
  else .reserved

/-- The word of S an address 0x04 + c names; the address's two low bits. -/
def blockIndex (a : Addr) : Fin 4 := ⟨a.toNat % 4, by omega⟩

/-! ### Byte sequences (20_memory.md R56, R57) -/

/-- Word i of a byte sequence: `word(b[4i], b[4i+1], b[4i+2], b[4i+3])`. -/
def wordOfBytes (bs : List Byte) (i : Nat) : Word :=
  wordOf (bs.getD (4 * i) 0) (bs.getD (4 * i + 1) 0) (bs.getD (4 * i + 2) 0)
    (bs.getD (4 * i + 3) 0)

/-- The block of a 16-byte sequence (R56). -/
def blockOfBytes (bs : List Byte) : Block :=
  #v[wordOfBytes bs 0, wordOfBytes bs 1, wordOfBytes bs 2, wordOfBytes bs 3]

/-- The four bytes of a word, byte 0 first. -/
def bytesOfWord (v : Word) : List Byte := [byteAt v 0, byteAt v 1, byteAt v 2, byteAt v 3]

/-- The byte sequence of a block: `out[4c + r] = byte(S[c], r)` (R56). -/
def bytesOfBlock (b : Block) : List Byte := b.toList.flatMap bytesOfWord

/-- The words of a key's byte sequence (R57). -/
def keyOfBytes (bs : List Byte) : List Word := (List.range (bs.length / 4)).map (wordOfBytes bs)

end Sys2Proof.Machine
end

