-- ==== Sys2Proof/Machine/Flags.lean ====
section
/-! DEFINITION. The flags: the STATUS word (30_encoding.md R84), and how BUSY, DONE and OP change when an
operation starts and when it ends (10_state.md R29). -/

namespace Sys2Proof.Machine

/-- One flag as a 32-bit word. -/
def flagWord (b : Bool) : Word := (BitVec.ofBool b).setWidth 32

/-- `STATUS = zext_32(BUSY | DONE<<1 | ERR<<2 | TAG<<4 | NK<<6 | RC<<8 | ERRCODE<<12)` (R84). -/
def statusWord (s : State) : Word :=
  flagWord s.busy ||| flagWord s.done <<< 1 ||| flagWord s.err <<< 2
    ||| s.tag.code.setWidth 32 <<< 4 ||| s.nk.code.setWidth 32 <<< 6
    ||| BitVec.ofNat 32 s.rc.val <<< 8 ||| (errcodeBits s.errcode).setWidth 32 <<< 12

/-- What every acceptance writes: `OP <- op; BUSY <- 1; DONE <- 0` (R143, R147, R163, R164). -/
def State.start (op : Op) (s : State) : State := { s with op := op, busy := true, done := false }

/-- What every last micro-step writes: `OP <- IDLE; BUSY <- 0; DONE <- 1` (R144, R149, R165). -/
def State.finish (s : State) : State := { s with op := .idle, busy := false, done := true }

end Sys2Proof.Machine
end

