-- ==== Sys2Proof/Machine/Field.lean ====
section
/-! DEFINITION. Field arithmetic (41_field_arithmetic.md): `double`, `multiply`, `mix_word` and the
diffusion polynomials. -/

namespace Sys2Proof.Machine

/-- `double(a)` (R121): shift left by one; if bit 7 of a was set, XOR 0x1B. -/
def double (a : Byte) : Byte :=
  if a.getLsbD 7 then (a <<< 1) ^^^ 0x1B#8 else a <<< 1

/-- The last n iterations of `multiply`'s loop, from iteration i with accumulator r and running copy p:
accumulate first, then double (R122, conflict C4). -/
def mulFrom (b : Byte) : (n i : Nat) → (r p : Byte) → Byte
  | 0, _, r, _ => r
  | n + 1, i, r, p => mulFrom b n (i + 1) (if b.getLsbD i then r ^^^ p else r) (double p)

/-- `multiply(a, b)` (R122). -/
def multiply (a b : Byte) : Byte := mulFrom b 8 0 0 a

/-- Byte j of `mix_word(a, b)` (R124): the XOR over k of `multiply(byte(a, (j-k) mod 4), byte(b, k))`. -/
def mixByte (a b : Word) (j : Nat) : Byte :=
  multiply (byteAt a (j % 4)) (byteAt b 0)
    ^^^ multiply (byteAt a ((j + 3) % 4)) (byteAt b 1)
    ^^^ multiply (byteAt a ((j + 2) % 4)) (byteAt b 2)
    ^^^ multiply (byteAt a ((j + 1) % 4)) (byteAt b 3)

/-- `mix_word(a, b)` (R124). -/
def mixWord (a b : Word) : Word :=
  wordOf (mixByte a b 0) (mixByte a b 1) (mixByte a b 2) (mixByte a b 3)

/-- The forward diffusion polynomial (R125). -/
def polyF : Word := 0x03010102

/-- The inverse diffusion polynomial (R125). -/
def polyI : Word := 0x0B0D090E

end Sys2Proof.Machine
end

