-- ==== Sys2Proof/Machine/Transforms.lean ====
section
/-! DEFINITION. The state transforms (42_state_transforms.md) and the parameters the direction selects
(44_round_driver.md R160). Word c of a block is column c; byte r of a word is row r. -/

namespace Sys2Proof.Machine

/-- `sub_word(w, tab)` (43_key_schedule.md R140). -/
def subWord (tab : Byte → Byte) (w : Word) : Word :=
  wordOf (tab (byteAt w 0)) (tab (byteAt w 1)) (tab (byteAt w 2)) (tab (byteAt w 3))

/-- `substitute(S, tab)` (R130). -/
def substitute (tab : Byte → Byte) (b : Block) : Block :=
  #v[subWord tab b[0], subWord tab b[1], subWord tab b[2], subWord tab b[3]]

/-- Column c (c in 0..3) of a block. -/
def column (b : Block) (c : Nat) : Word := b.toList.getD c 0

/-- Column c of `row_rotate(S, sh)`: row r comes from column `(c + sh*r) mod 4` (R131). -/
def rotatedColumn (sh : Nat) (b : Block) (c : Nat) : Word :=
  wordOf (byteAt (column b (c % 4)) 0) (byteAt (column b ((c + sh) % 4)) 1)
    (byteAt (column b ((c + sh * 2) % 4)) 2) (byteAt (column b ((c + sh * 3) % 4)) 3)

/-- `row_rotate(S, sh)` (R131). -/
def rowRotate (sh : Nat) (b : Block) : Block :=
  #v[rotatedColumn sh b 0, rotatedColumn sh b 1, rotatedColumn sh b 2, rotatedColumn sh b 3]

/-- `col_mix(S, poly)` (R132). -/
def colMix (poly : Word) (b : Block) : Block :=
  #v[mixWord poly b[0], mixWord poly b[1], mixWord poly b[2], mixWord poly b[3]]

/-- `add_key(S, K)`, the pure part (R133). -/
def addKey (b k : Block) : Block :=
  #v[b[0] ^^^ k[0], b[1] ^^^ k[1], b[2] ^^^ k[2], b[3] ^^^ k[3]]

/-- Word n of a schedule; n is below the schedule's length wherever the machine reads one
(60_exceptions.md R209). -/
def schedWord (w : List Word) (n : Nat) : Word := w.getD n 0

/-- Slice r of a schedule: `w[4r]`, `w[4r+1]`, `w[4r+2]`, `w[4r+3]` (20_memory.md R58). -/
def slice (w : List Word) (r : Nat) : Block :=
  #v[schedWord w (4 * r), schedWord w (4 * r + 1), schedWord w (4 * r + 2), schedWord w (4 * r + 3)]

/-! ### The parameter tuple (44_round_driver.md R160) -/

/-- `tab(DIR)`. -/
def Dir.table : Dir → Byte → Byte
  | .forward => sbox
  | .inverse => invSbox

/-- `sh(DIR)`. -/
def Dir.shift : Dir → Nat
  | .forward => 1
  | .inverse => 3

/-- `poly(DIR)`. -/
def Dir.poly : Dir → Word
  | .forward => polyF
  | .inverse => polyI

/-- `kind(DIR)`. -/
def Dir.kind : Dir → Tag
  | .forward => .fwd
  | .inverse => .inv

/-! ### One round, the transforms in the order of R135 -/

/-- `add_key(col_mix(row_rotate(substitute(S, tab), sh), poly), K)`. -/
def fullRound (d : Dir) (k b : Block) : Block :=
  addKey (colMix d.poly (rowRotate d.shift (substitute d.table b))) k

/-- `add_key(row_rotate(substitute(S, tab), sh), K)`: column mixing is omitted. -/
def lastRound (d : Dir) (k b : Block) : Block :=
  addKey (rowRotate d.shift (substitute d.table b)) k

/-! ### The cipher as a function (R161) -/

/-- The state after `Initial` and the full rounds 1 to n. -/
def roundsUpTo (d : Dir) (w : List Word) (x : Block) : Nat → Block
  | 0 => addKey x (slice w 0)
  | r + 1 => fullRound d (slice w (r + 1)) (roundsUpTo d w x r)

/-- `cipher(x, w, Nr, DIR)` (R161). -/
def cipher (x : Block) (w : List Word) (nr : Nat) (d : Dir) : Block :=
  lastRound d (slice w nr) (roundsUpTo d w x (nr - 1))

end Sys2Proof.Machine
end

