-- ==== Sys2Proof/Machine/Schedule.lean ====
section
/-! DEFINITION. The key schedule as pure functions (43_key_schedule.md): `rot_byte`, `expand`,
`invsched`. The commands' micro-steps are in KeyExpander. -/

namespace Sys2Proof.Machine

/-- `rot_byte(w) = ROTR32(w, 8)` (R141). -/
def rotByte (w : Word) : Word := rotr32 w 8

/-- `temp` of `expand` at index i, from `w[i-1]` (R142): rotation, substitution, constant. -/
def expandTemp (nk i : Nat) (prev : Word) : Word :=
  if i % nk = 0 then subWord sbox (rotByte prev) ^^^ rcon (i / nk - 1)
  else if 6 < nk ∧ i % nk = 4 then subWord sbox prev
  else prev

/-- The next word of `expand`, after the words ws (R142). -/
def expandNext (key : List Word) (nk : Nat) (ws : List Word) : Word :=
  let i := ws.length
  if i < nk then schedWord key i
  else schedWord ws (i - nk) ^^^ expandTemp nk i (schedWord ws (i - 1))

/-- The first n words of `expand(key, Nk)`. -/
def expandTo (key : List Word) (nk : Nat) : Nat → List Word
  | 0 => []
  | n + 1 => expandTo key nk n ++ [expandNext key nk (expandTo key nk n)]

/-- `expand(key, Nk)`, `4*(Nr+1)` words with `Nr = Nk + 6` (R142). -/
def expand (key : List Word) (nk : Nat) : List Word := expandTo key nk (4 * (nk + 6 + 1))

/-- Word j of `invsched(w, Nr)` (R146): slice `i = j div 4` comes from slice `Nr - i`; the slices
between the first and the last are mixed with POLY_I. For j past the schedule, where `Nr - i` is below 0,
the source is slice 0, mixed: the model's choice (log entries 8 and 15). -/
def invschedWord (w : List Word) (nr j : Nat) : Word :=
  let i := j / 4
  let src := schedWord w (4 * (nr - i) + j % 4)
  if i = 0 ∨ i = nr then src else mixWord polyI src

/-- `invsched(w, Nr)` (R146). -/
def invsched (w : List Word) (nr : Nat) : List Word :=
  (List.range (4 * (nr + 1))).map (invschedWord w nr)

end Sys2Proof.Machine
end

