-- ==== Sys2Proof/Machine/Ops.lean ====
section
/-! DEFINITION. The shared operations: reading and writing registers, raising a refusal
(60_exceptions.md R200), reset (70_reset_and_hazards.md R220) and the start of a host cycle. -/

namespace Sys2Proof.Machine

/-- The outcome of an instruction of this machine. -/
abbrev Result := Host.Outcome State Fault Refusal

/-! ### Registers -/

/-- W as a list of words. -/
def State.sched (s : State) : List Word := s.w.toList

/-- KEY as a list of words. -/
def State.keyWords (s : State) : List Word := s.key.toList

/-- `S[c] <- v`. -/
def State.putBlockWord (c : Fin 4) (v : Word) (s : State) : State :=
  { s with blk := s.blk.set c.val v c.isLt }

/-- `KEY[i] <- v`. -/
def State.putKeyWord (i : Fin 8) (v : Word) (s : State) : State :=
  { s with key := s.key.set i.val v i.isLt }

/-- `W[i] <- v`. -/
def State.putSchedWord (i : Fin 60) (v : Word) (s : State) : State :=
  { s with w := s.w.set i.val v i.isLt }

/-- `T[i] <- v`. -/
def State.putScratchWord (i : Fin 60) (v : Word) (s : State) : State :=
  { s with t := s.t.set i.val v i.isLt }

/-- The value `RD a` returns (45_commands.md R180): CTRL and the reserved addresses read 0. -/
def State.readPort (a : Addr) (s : State) : Word :=
  match target a with
  | .ctrl => 0
  | .status => statusWord s
  | .block c => s.blk[c]
  | .key i => s.key[i]
  | .sched i => s.w[i]
  | .reserved => 0

/-! ### Refusals -/

/-- `raise Refusal(code)` (R200): the first cause is kept, and nothing else changes. There is no
return from it: ERR and ERRCODE are cleared only by reset (R208). -/
def State.raise (c : Cause) (s : State) : State :=
  { s with err := true, errcode := if s.err then s.errcode else some c }

/-- A write that the core refuses. -/
def refuse (c : Cause) (s : State) : Result := .next (s.raise c)

/-- Every write while BUSY = 1 is refused, whatever it is (R202, R207 (1)). -/
def unlessBusy (s : State) (act : State → Result) : Result :=
  if s.busy then refuse .busyViolation s else act s

/-! ### The host cycle -/

/-- The start of a host cycle with pins p: the pins are latched, and `rdata` has no stated value until
the operation drives it, so it is a free value (log entry 3). -/
def State.beginCycle (p : Pins) (s : State) : State :=
  { s with pins := p, rdata := Config.undrivenRdata s.fresh, fresh := s.fresh + 1 }

/-- `rdata <- v`. -/
def State.driveRdata (v : Word) (s : State) : State := { s with rdata := v }

/-- What `rdata` carries in a reset cycle: a `RD` there "returns the pre-reset contents" (R220), with
`sel` = 0 it is 0 (R81), and a `WR` drives nothing. -/
def State.resetRdata (s : State) : Word :=
  if s.pins.sel then
    if s.pins.we then s.rdata else s.readPort s.pins.addr
  else 0

/-- An edge with `rst` = 1 (R220), in a host cycle that has begun: every state element takes its reset
value, with fresh contents of W and T; the port's signals and the events to come are not state of the
core and stay. -/
def State.applyReset (s : State) : State :=
  { State.resetWith s.fresh with
    pins := s.pins, rdata := s.resetRdata, pending := s.pending }

end Sys2Proof.Machine
end

