-- ==== Sys2Proof/Machine/KeyExpander.lean ====
section
/-! DEFINITION. The KSEL rows (30_encoding.md R91): the EXPAND micro-step (43_key_schedule.md R144), one
definition for each way `W[i]` is formed; and the two micro-steps of INVSCHED (R148, R149), which have
no row. -/

namespace Sys2Proof.Machine

/-- `W[i-Nk]`, i = KI. -/
def State.wordNkBack (s : State) : Word := schedWord s.sched (s.ki.val - s.nk.nk)

/-- `W[i-1]`, i = KI. -/
def State.prevWord (s : State) : Word := schedWord s.sched (s.ki.val - 1)

/-- The end of an EXPAND micro-step (R144): `W[i] <- v`, and KI advances or the operation ends with
`TAG <- FWD`. -/
def State.expandWith (v : Word) (s : State) : State :=
  let s' := s.putSchedWord s.ki v
  if s.ki.val < s.nk.last then { s' with ki := s.ki + 1 }
  else { s'.finish with ki := 0, tag := .fwd }

/-- KEYCOPY: `W[i] <- KEY[i]`. -/
def execKeycopy (s : State) : Result := .next (s.expandWith (schedWord s.keyWords s.ki.val))

/-- PLAIN: `W[i] <- W[i-Nk] XOR W[i-1]`. -/
def execPlain (s : State) : Result := .next (s.expandWith (s.wordNkBack ^^^ s.prevWord))

/-- ROTSUB: `W[i] <- W[i-Nk] XOR sub_word(rot_byte(W[i-1]), SBOX) XOR RCON[i div Nk - 1]`. -/
def execRotsub (s : State) : Result :=
  .next (s.expandWith
    (s.wordNkBack ^^^ (subWord sbox (rotByte s.prevWord) ^^^ rcon (s.ki.val / s.nk.nk - 1))))

/-- SUBONLY: `W[i] <- W[i-Nk] XOR sub_word(W[i-1], SBOX)`. -/
def execSubonly (s : State) : Result :=
  .next (s.expandWith (s.wordNkBack ^^^ subWord sbox s.prevWord))

/-! ### INVSCHED -/

/-- The compute micro-step (R148): word KI of the inverse schedule goes into T. -/
def State.invschedCompute (s : State) : State :=
  let s' := s.putScratchWord s.ki (invschedWord s.sched s.nk.nr s.ki.val)
  if s.ki.val < s.nk.last then { s' with ki := s.ki + 1 } else { s' with ki := 0, ph := .copy }

/-- The copy micro-step (R149): `W[j] <- T[j]`, j = KI. -/
def State.invschedCopy (s : State) : State :=
  let s' := s.putSchedWord s.ki s.t[s.ki]
  if s.ki.val < s.nk.last then { s' with ki := s.ki + 1 }
  else { s'.finish with ki := 0, ph := .compute, tag := .inv }

/-- The micro-step of INVSCHED that PH names. -/
def State.invschedStep (s : State) : State :=
  match s.ph with
  | .compute => s.invschedCompute
  | .copy => s.invschedCopy

end Sys2Proof.Machine
end

