-- ==== Sys2Proof/WellFormed.lean ====
section
/-! DEFINITION. Which terms of `Instr` stand for a row of the opcode table. -/

namespace Sys2Proof

/-- The one condition the table adds to its patterns: EXPAND's KS is not 3 (30_encoding.md R95). -/
def Instr.wellFormed : Instr → Bool
  | .idle _ _ => true
  | .rd _ => true
  | .wr _ _ => true
  | .nop => true
  | .expand ks => ks != 3#2
  | .encrypt => true
  | .decrypt => true
  | .invsched => true
  | .hold => true
  | .hostwr => true
  | .init => true
  | .full => true
  | .last => true
  | .keycopy => true
  | .plain => true
  | .rotsub => true
  | .subonly => true

end Sys2Proof
end

