-- ==== Sys2Proof/Decode.lean ====
section
/-! DEFINITION. The decoder, total on every code of every format and rejecting by name
(30_encoding.md R81 to R92), the encoder beside it, and the table's rows as masks and patterns. -/

namespace Sys2Proof

/-- Why a CTRL word names no command. -/
inductive CtrlReject where
  /-- A malformed word (60_exceptions.md R203). -/
  | illegalCmd
  /-- The word 0x00000031, EXPAND with KS = 3 (R204). -/
  | illegalKeysize
deriving DecidableEq, Repr

/-- Why a code names no operation. -/
inductive Reject where
  /-- A CTRL word that names no command. -/
  | ctrl (r : CtrlReject)
  /-- SSEL 5 to 7, "never generated" (30_encoding.md R90). -/
  | unusedSelect
deriving DecidableEq, Repr

/-! ### Fields -/

/-- `sel`, bit 8 of a PORT code (R81). -/
def portSel (code : BitVec 9) : Bool := code.getLsbD 8

/-- `we`, bit 7 of a PORT code. -/
def portWe (code : BitVec 9) : Bool := code.getLsbD 7

/-- `addr[6:0]` of a PORT code. -/
def portAddr (code : BitVec 9) : Addr := code.extractLsb' 0 7

/-- The PORT code of the three signals. -/
def portCode (sel we : Bool) (addr : Addr) : BitVec 9 :=
  BitVec.ofBool sel ++ BitVec.ofBool we ++ addr

/-- CMD, bits 2:0 of a CTRL word (R82). -/
def ctrlCmd (v : Word) : BitVec 3 := v.extractLsb' 0 3

/-- KS, bits 5:4 of a CTRL word (R82). -/
def ctrlKs (v : Word) : BitVec 2 := v.extractLsb' 4 2

/-- A CTRL word's form is wrong: bit 3 or a bit of 31:6 set, CMD in 5..7, or KS != 0 with CMD != 1
(45_commands.md R182, the first check). -/
def ctrlMalformed (v : Word) : Bool :=
  v.getLsbD 3 || v.extractLsb' 6 26 != 0#26 || decide (5 ≤ (ctrlCmd v).toNat)
    || (ctrlCmd v != 1#3 && ctrlKs v != 0#2)

/-! ### Decoding -/

/-- The PORT rows (R81): every code names one of the three. -/
def decodePort (code : BitVec 9) (wdata : Word) : Instr :=
  if portSel code then
    if portWe code then .wr (portAddr code) wdata else .rd (portAddr code)
  else .idle (portWe code) (portAddr code)

/-- The CTRL rows (R83), with the checks of R182 that look at the word alone, in its order. -/
def decodeCtrl (v : Word) : Except CtrlReject Command :=
  if ctrlMalformed v then .error .illegalCmd
  else if ctrlCmd v = 0#3 then .ok .nop
  else if ctrlCmd v = 1#3 then
    if ctrlKs v = 3#2 then .error .illegalKeysize else .ok (.expand (ctrlKs v))
  else if ctrlCmd v = 2#3 then .ok .encrypt
  else if ctrlCmd v = 3#3 then .ok .decrypt
  else .ok .invsched

/-- The SSEL codes (R90). -/
def decodeSsel (sel : BitVec 3) : Except Reject Ssel :=
  match sel.toNat with
  | 0 => .ok .hold
  | 1 => .ok .hostwr
  | 2 => .ok .init
  | 3 => .ok .full
  | 4 => .ok .last
  | _ => .error .unusedSelect

/-- The KSEL codes (R91). -/
def decodeKsel (sel : BitVec 2) : Ksel :=
  match sel.toNat with
  | 0 => .keycopy
  | 1 => .plain
  | 2 => .rotsub
  | _ => .subonly

/-- The row a command stands for. -/
def Command.toInstr : Command → Instr
  | .nop => .nop
  | .expand ks => .expand ks
  | .encrypt => .encrypt
  | .decrypt => .decrypt
  | .invsched => .invsched

/-- The row an SSEL select stands for. -/
def Ssel.toInstr : Ssel → Instr
  | .hold => .hold
  | .hostwr => .hostwr
  | .init => .init
  | .full => .full
  | .last => .last

/-- The row a KSEL select stands for. -/
def Ksel.toInstr : Ksel → Instr
  | .keycopy => .keycopy
  | .plain => .plain
  | .rotsub => .rotsub
  | .subonly => .subonly

/-- The row a code stands for, or why it stands for none. -/
def decode : Code → Except Reject Instr
  | .port code wdata => .ok (decodePort code wdata)
  | .ctrl v => ((decodeCtrl v).map Command.toInstr).mapError Reject.ctrl
  | .ssel sel => (decodeSsel sel).map Ssel.toInstr
  | .ksel sel => .ok (decodeKsel sel).toInstr

/-! ### Encoding -/

/-- The CTRL word of a command with its KS field (R82, R83). -/
def ctrlWord (cmd : BitVec 3) (ks : BitVec 2) : Word := 0#26 ++ ks ++ 0#1 ++ cmd

/-- The code of a row. The bus `wdata`, which IDLE and RD ignore, is 0 there. -/
def encode : Instr → Code
  | .idle we addr => .port (portCode false we addr) 0
  | .rd addr => .port (portCode true false addr) 0
  | .wr addr wdata => .port (portCode true true addr) wdata
  | .nop => .ctrl (ctrlWord 0 0)
  | .expand ks => .ctrl (ctrlWord 1 ks)
  | .encrypt => .ctrl (ctrlWord 2 0)
  | .decrypt => .ctrl (ctrlWord 3 0)
  | .invsched => .ctrl (ctrlWord 4 0)
  | .hold => .ssel 0
  | .hostwr => .ssel 1
  | .init => .ssel 2
  | .full => .ssel 3
  | .last => .ssel 4
  | .keycopy => .ksel 0
  | .plain => .ksel 1
  | .rotsub => .ksel 2
  | .subonly => .ksel 3

/-! ### The opcode table -/

/-- The four formats of the table's rows (R80). -/
inductive Format where
  | port
  | ctrl
  | ssel
  | ksel
deriving DecidableEq, Repr

/-- The format a code is of. -/
def Code.format : Code → Format
  | .port _ _ => .port
  | .ctrl _ => .ctrl
  | .ssel _ => .ssel
  | .ksel _ => .ksel

/-- A code's bits as the table numbers them; the bus `wdata` is not among them. -/
def Code.bits : Code → Nat
  | .port code _ => code.toNat
  | .ctrl v => v.toNat
  | .ssel sel => sel.toNat
  | .ksel sel => sel.toNat

/-- One row: a word w selects it when `w AND mask = pattern` (R95). -/
structure Row where
  format : Format
  pattern : Nat
  mask : Nat
deriving DecidableEq, Repr

/-- The row of spec/opcode_table.json an instruction belongs to. -/
def Instr.row : Instr → Row
  | .idle _ _ => ⟨.port, 0x000, 0x100⟩
  | .rd _ => ⟨.port, 0x100, 0x180⟩
  | .wr _ _ => ⟨.port, 0x180, 0x180⟩
  | .nop => ⟨.ctrl, 0x00000000, 0xFFFFFFFF⟩
  | .expand _ => ⟨.ctrl, 0x00000001, 0xFFFFFFCF⟩
  | .encrypt => ⟨.ctrl, 0x00000002, 0xFFFFFFFF⟩
  | .decrypt => ⟨.ctrl, 0x00000003, 0xFFFFFFFF⟩
  | .invsched => ⟨.ctrl, 0x00000004, 0xFFFFFFFF⟩
  | .hold => ⟨.ssel, 0x0, 0x7⟩
  | .hostwr => ⟨.ssel, 0x1, 0x7⟩
  | .init => ⟨.ssel, 0x2, 0x7⟩
  | .full => ⟨.ssel, 0x3, 0x7⟩
  | .last => ⟨.ssel, 0x4, 0x7⟩
  | .keycopy => ⟨.ksel, 0x0, 0x3⟩
  | .plain => ⟨.ksel, 0x1, 0x3⟩
  | .rotsub => ⟨.ksel, 0x2, 0x3⟩
  | .subonly => ⟨.ksel, 0x3, 0x3⟩

/-- A code selects a row (R95). -/
def Row.selects (r : Row) (c : Code) : Bool :=
  decide (c.format = r.format) && c.bits &&& r.mask == r.pattern

/-- The code of `nbits` table bits `w`, operand words 0: 9 bits are PORT, 32 CTRL, 3 SSEL and 2 KSEL,
each also in whole bytes. One byte could be SSEL or KSEL; it is read as SSEL (log entry 9). -/
def tableCode (nbits w : Nat) : Option Code :=
  if (nbits = 9 ∨ nbits = 16) ∧ w < 2 ^ 9 then some (.port (BitVec.ofNat 9 w) 0)
  else if nbits = 32 ∧ w < 2 ^ 32 then some (.ctrl (BitVec.ofNat 32 w))
  else if (nbits = 3 ∨ nbits = 8) ∧ w < 2 ^ 3 then some (.ssel (BitVec.ofNat 3 w))
  else if nbits = 2 ∧ w < 2 ^ 2 then some (.ksel (BitVec.ofNat 2 w))
  else none

/-- The instruction the decoder reads from `nbits` bits `w` of the table's numbering. -/
def decodeTableWord (nbits w : Nat) : Option Instr :=
  (tableCode nbits w).bind fun c => (decode c).toOption

end Sys2Proof
end

