-- ==== Sys2Proof/Machine/Commands.lean ====
section
/-! DEFINITION. The CTRL rows: NOP (45_commands.md R183), EXPAND (43_key_schedule.md R143), ENCRYPT and
DECRYPT (44_round_driver.md R163, R164), INVSCHED (43_key_schedule.md R147). Each is the write of that
row's word to CTRL: its checks in the rule's order, and what acceptance writes. -/

namespace Sys2Proof.Machine

/-- What accepting EXPAND writes (R143). -/
def State.acceptExpand (k : KeySize) (s : State) : State :=
  { s.start .expand with nk := k, ki := 0, tag := .none }

/-- What accepting a cipher command writes (R163, R164). -/
def State.acceptCipher (d : Dir) (s : State) : State := { s.start .cipher with dir := d }

/-- What accepting INVSCHED writes (R147). -/
def State.acceptInvsched (s : State) : State :=
  { s.start .invsched with ki := 0, ph := .compute, tag := .none }

/-- Accept if W holds a schedule of the kind asked for (60_exceptions.md R205). -/
def requireTag (k : Tag) (accept : State → State) (s : State) : Result :=
  if s.tag = k then .next (accept s) else refuse .schedMismatch s

/-- NOP (R183). -/
def execNop (s : State) : Result := unlessBusy s fun s => .next s

/-- EXPAND (R143): KS = 3 is refused with ILLEGAL_KEYSIZE. -/
def execExpand (ks : BitVec 2) (s : State) : Result :=
  unlessBusy s fun s =>
    match KeySize.ofCode ks with
    | none => refuse .illegalKeysize s
    | some k => .next (s.acceptExpand k)

/-- ENCRYPT (R163). -/
def execEncrypt (s : State) : Result :=
  unlessBusy s (requireTag Dir.forward.kind (State.acceptCipher .forward))

/-- DECRYPT (R164). -/
def execDecrypt (s : State) : Result :=
  unlessBusy s (requireTag Dir.inverse.kind (State.acceptCipher .inverse))

/-- INVSCHED (R147). -/
def execInvsched (s : State) : Result :=
  unlessBusy s (requireTag .fwd State.acceptInvsched)

/-- The meaning of a command. -/
def execCommand : Command → State → Result
  | .nop, s => execNop s
  | .expand ks, s => execExpand ks s
  | .encrypt, s => execEncrypt s
  | .decrypt, s => execDecrypt s
  | .invsched, s => execInvsched s

end Sys2Proof.Machine
end

