-- ==== Sys2Proof/Machine/Port.lean ====
section
/-! DEFINITION. The PORT rows: IDLE (30_encoding.md R81), RD (45_commands.md R180) and WR (R181), with the
dispatch of a CTRL write (R182). -/

namespace Sys2Proof.Machine

/-- The cause a CTRL word that names no command is refused with (R182). -/
def rejectCause : CtrlReject → Cause
  | .illegalCmd => .illegalCmd
  | .illegalKeysize => .illegalKeysize

/-- `dispatch(v)` (R182). -/
def dispatch (v : Word) (s : State) : Result :=
  match decodeCtrl v with
  | .error r => refuse (rejectCause r) s
  | .ok c => execCommand c s

/-- IDLE: no host operation; "`rdata` is 0" (R81). -/
def execIdle (_we : Bool) (_addr : Addr) (s : State) : Result := .next (s.driveRdata 0)

/-- RD (R180). -/
def execRd (a : Addr) (s : State) : Result := .next (s.driveRdata (s.readPort a))

/-- WR (R181). -/
def execWr (a : Addr) (v : Word) (s : State) : Result :=
  unlessBusy s fun s =>
    match target a with
    | .ctrl => dispatch v s
    | .status => refuse .badAccess s
    | .block c => .next (s.putBlockWord c v)
    | .key i => .next (s.putKeyWord i v)
    | .sched _ => refuse .badAccess s
    | .reserved => refuse .badAccess s

end Sys2Proof.Machine
end

