-- ==== Sys2Proof/Machine/RoundDriver.lean ====
section
/-! DEFINITION. The SSEL rows (30_encoding.md R90): what is loaded into S, with the rest of the cipher
micro-step that loads it (44_round_driver.md R165, R166). -/

namespace Sys2Proof.Machine

/-- HOLD: S is unchanged, and so is everything else (R166). -/
def execHold (s : State) : Result := .next s

/-- HOSTWR: word `addr - 0x04` of S is replaced by `wdata`, both from the pins (R166). -/
def execHostwr (s : State) : Result :=
  .next (s.putBlockWord (blockIndex s.pins.addr) s.pins.wdata)

/-- INIT (R165, RC = 0): `S <- add_key(S, slice 0); RC <- 1`. -/
def execInit (s : State) : Result :=
  .next { s with blk := addKey s.blk (slice s.sched 0), rc := 1 }

/-- FULL (R165, 1 <= RC <= Nr-1): a full round with slice RC; `RC <- RC + 1`. Under its condition RC + 1 is
at most Nr <= 14. Run at RC = 14, outside its condition, RC wraps to 0, because RC = 15 cannot be held: the
model's choice (log entry 8). -/
def execFull (s : State) : Result :=
  .next { s with blk := fullRound s.dir (slice s.sched s.rc.val) s.blk, rc := s.rc + 1 }

/-- LAST (R165, RC = Nr): the round without column mixing, with slice Nr; `RC <- 0` and the operation
ends. -/
def execLast (s : State) : Result :=
  .next { s.finish with blk := lastRound s.dir (slice s.sched s.nk.nr) s.blk, rc := 0 }

end Sys2Proof.Machine
end

