-- ==== Sys2Proof/Machine/Dispatch.lean ====
section
/-! DEFINITION. The one match over the instructions: each row's meaning. -/

namespace Sys2Proof.Machine

/-- The outcome of an instruction in a state. -/
def exec (i : Instr) (s : State) : Host.Outcome State Fault Refusal :=
  match i with
  | .idle we addr => Sys2Proof.Machine.execIdle we addr s
  | .rd addr => Sys2Proof.Machine.execRd addr s
  | .wr addr wdata => Sys2Proof.Machine.execWr addr wdata s
  | .nop => Sys2Proof.Machine.execNop s
  | .expand ks => Sys2Proof.Machine.execExpand ks s
  | .encrypt => Sys2Proof.Machine.execEncrypt s
  | .decrypt => Sys2Proof.Machine.execDecrypt s
  | .invsched => Sys2Proof.Machine.execInvsched s
  | .hold => Sys2Proof.Machine.execHold s
  | .hostwr => Sys2Proof.Machine.execHostwr s
  | .init => Sys2Proof.Machine.execInit s
  | .full => Sys2Proof.Machine.execFull s
  | .last => Sys2Proof.Machine.execLast s
  | .keycopy => Sys2Proof.Machine.execKeycopy s
  | .plain => Sys2Proof.Machine.execPlain s
  | .rotsub => Sys2Proof.Machine.execRotsub s
  | .subonly => Sys2Proof.Machine.execSubonly s

end Sys2Proof.Machine
end

