-- ==== Sys2Proof/Machine/Agents.lean ====
section
/-! DEFINITION. The two agents (00_scope.md R7): which select the CORE's state gives, one turn of the
CORE, one cycle of the HOST, and one clock edge (70_reset_and_hazards.md R240). -/

namespace Sys2Proof.Machine

/-! ### The selects -/

/-- The SSEL of a cipher micro-step (44_round_driver.md R165). -/
def cipherSelect (s : State) : Ssel :=
  if s.rc.val = 0 then .init
  else if s.rc.val < s.nk.nr then .full
  else .last

/-- The KSEL of an EXPAND micro-step (43_key_schedule.md R144). -/
def expandSelect (s : State) : Ksel :=
  if s.ki.val < s.nk.nk then .keycopy
  else if s.ki.val % s.nk.nk = 0 then .rotsub
  else if 6 < s.nk.nk ∧ s.ki.val % s.nk.nk = 4 then .subonly
  else .plain

/-- A host cycle is an accepted write to BLOCK0..3 (44_round_driver.md R166, the condition of HOSTWR). -/
def acceptsBlockWrite (s : State) (p : Pins) : Bool :=
  !p.rst && p.sel && p.we && !s.busy && decide (0x04 ≤ p.addr.toNat ∧ p.addr.toNat ≤ 0x07)

/-- The SSEL of an event (R166); reset is not among them. -/
def eventSelect (s : State) : Event → Ssel
  | .host p => if acceptsBlockWrite s p then .hostwr else .hold
  | .core =>
    match s.op with
    | .cipher => cipherSelect s
    | .idle => .hold
    | .expand => .hold
    | .invsched => .hold

/-! ### The CORE -/

/-- One turn of the CORE: the micro-step that OP enables; with OP = IDLE "it has no step" (R7) and S is
held (log entry 13). -/
def coreStep (s : State) : Result :=
  match s.op with
  | .idle => exec .hold s
  | .expand => exec (expandSelect s).toInstr s
  | .cipher => exec (cipherSelect s).toInstr s
  | .invsched => .next s.invschedStep

/-! ### The HOST -/

/-- The PORT code the pins carry (30_encoding.md R81). -/
def Pins.code (p : Pins) : BitVec 9 := portCode p.sel p.we p.addr

/-- One host cycle: reset wins over the port (R220); otherwise the port's row runs. -/
def hostCycle (p : Pins) (s : State) : Result :=
  if p.rst then .next (s.beginCycle p).applyReset
  else exec (decodePort p.code p.wdata) (s.beginCycle p)

/-! ### Several agents' moves, one after another -/

/-- Run `f` on the next state, if there is one. -/
def andThen (r : Result) (f : State → Result) : Result :=
  match r with
  | .next s => f s
  | .fault x => .fault x
  | .refused x => .refused x

/-- n turns of the CORE. -/
def coreTurns : Nat → State → Result
  | 0, s => .next s
  | n + 1, s => andThen (coreStep s) (coreTurns n)

/-- One clock cycle of R240: the port's operation sees the state before the edge; if BUSY was 1 and there
is no reset, the enabled micro-step takes effect at the same edge. Log entry 7. -/
def clockEdge (p : Pins) (s : State) : Result :=
  if s.busy && !p.rst then andThen (hostCycle p s) coreStep else hostCycle p s

/-! ### Placing an instruction -/

/-- The pins of a PORT code with its bus. -/
def pinsOfPort (code : BitVec 9) (wdata : Word) : Pins :=
  ⟨false, portSel code, portWe code, portAddr code, wdata⟩

/-- The pins of a write of v to address a. -/
def pinsOfWrite (a : Addr) (v : Word) : Pins := ⟨false, true, true, a, v⟩

/-- An event put before all others. -/
def State.expect (e : Event) (s : State) : State := { s with pending := e :: s.pending }

/-- A state with no operation in progress, whose next event is e. -/
def State.readyIdle (e : Event) (s : State) : State :=
  { s with op := .idle, busy := false, pending := e :: s.pending }

/-- A state in a cipher operation at round counter r, the CORE next. -/
def State.readyCipher (r : Fin 15) (s : State) : State :=
  { s with op := .cipher, busy := true, rc := r, pending := .core :: s.pending }

/-- A state in an EXPAND for key size k at word i, the CORE next. -/
def State.readyExpand (k : KeySize) (i : Fin 60) (s : State) : State :=
  { s with op := .expand, busy := true, nk := k, ki := i, pending := .core :: s.pending }

/-- The round counter Nr of a key size. -/
def KeySize.lastRound : KeySize → Fin 15
  | .k128 => 10
  | .k192 => 12
  | .k256 => 14

/-- The word index Nk of a key size. -/
def KeySize.firstRotsub : KeySize → Fin 60
  | .k128 => 4
  | .k192 => 6
  | .k256 => 8

/-- s made ready so that its next step runs the instruction of code c (log entries 10 and 11): a PORT row
and a CTRL row are the next host cycle; a select row is a state whose sequencer gives that select. -/
def State.place (c : Code) (s : State) : State :=
  match c with
  | .port code wdata => s.expect (.host (pinsOfPort code wdata))
  | .ctrl v => s.expect (.host (pinsOfWrite 0 v))
  | .ssel sel =>
    match decodeSsel sel with
    | .ok .hold => s.readyIdle .core
    | .ok .hostwr => s.readyIdle (.host (pinsOfWrite 0x04 0))
    | .ok .init => s.readyCipher 0
    | .ok .full => s.readyCipher 1
    | .ok .last => s.readyCipher s.nk.lastRound
    | .error _ => s
  | .ksel sel =>
    match decodeKsel sel with
    | .keycopy => s.readyExpand s.nk 0
    | .plain => s.readyExpand s.nk (s.nk.firstRotsub + 1)
    | .rotsub => s.readyExpand s.nk s.nk.firstRotsub
    | .subonly => s.readyExpand .k256 12

end Sys2Proof.Machine
end

