-- ==== Sys2Proof/Machine/Step.lean ====
section
/-! DEFINITION. One step: the next event of the total order of 20_memory.md R62. -/

namespace Sys2Proof.Machine

/-- One step. With no event pending a busy CORE takes its micro-step (the weak fairness of R62), and
otherwise the HOST does nothing in one cycle (log entry 5). -/
def step (s : State) : Host.Outcome State Fault Refusal :=
  match s.pending with
  | [] => if s.busy then coreStep s else hostCycle .quiet s
  | .core :: rest => coreStep { s with pending := rest }
  | .host p :: rest => hostCycle p { s with pending := rest }

/-- s with the instruction of `nbits` table bits `w` placed where the next step takes it from (log entry
11). -/
def State.withFetchWord (s : State) (nbits w : Nat) : State :=
  match tableCode nbits w with
  | some c => s.place c
  | none => s

end Sys2Proof.Machine
end

