-- ==== Sys2Proof/Machine/HostProgram.lean ====
section
/-! DEFINITION. The HOST's program notation (30_encoding.md R94): each line as the operations it stands for,
each with the value the line asserts it reads; running them, with what the HOST has read and whether every
assertion held; and `WAIT`, which is no fixed list of operations but the HOST's own loop over `RD STATUS`
(45_commands.md R184). -/

namespace Sys2Proof.Machine

/-! ### Operations -/

/-- The host cycle of `WR a, v`. -/
def writeEvent (a : Addr) (v : Word) : Event := .host (pinsOfWrite a v)

/-- The pins of a read of address a. -/
def pinsOfRead (a : Addr) : Pins := ⟨false, true, false, a, 0⟩

/-- The host cycle of `RD a`. -/
def readEvent (a : Addr) : Event := .host (pinsOfRead a)

/-- The host cycle that asserts `rst` (R81). -/
def resetEvent : Event := .host ⟨true, false, false, 0, 0⟩

/-- An event is a host cycle that reads: `sel` = 1, `we` = 0. -/
def Event.isRead : Event → Bool
  | .host p => p.sel && !p.we
  | .core => false

/-- One event of a program, and the value the program asserts that it reads, if it asserts one. -/
structure HostOp where
  event : Event
  asserted : Option Word
deriving DecidableEq, Repr

/-- `WR a, v`. -/
def writeOp (a : Addr) (v : Word) : HostOp := ⟨writeEvent a v, none⟩

/-- `RD a`, or `RD a = v`. -/
def readOp (a : Addr) (v : Option Word) : HostOp := ⟨readEvent a, v⟩

/-! ### Lines -/

/-- One line of a host program. -/
inductive HostLine where
  /-- `WR a, v` -/
  | wr (a : Addr) (v : Word)
  /-- `RD a`, or `RD a = v`, which "also asserts the value read is v" -/
  | rd (a : Addr) (v : Option Word)
  /-- `STEP n`: n CORE micro-steps occur here -/
  | turns (n : Nat)
  | nop
  | expand (k : KeySize)
  | encrypt
  | decrypt
  | invsched
  /-- `LOADKEY h`, h as its bytes (20_memory.md R57) -/
  | loadKey (bytes : List Byte)
  /-- `LOADBLOCK h` (R56) -/
  | loadBlock (bytes : List Byte)
  /-- `READBLOCK = h`: the four reads, "asserting the 16 bytes read, in the order of 20_memory.md R56,
  are h"; `none` is the four reads alone -/
  | readBlock (bytes : Option (List Byte))
deriving DecidableEq, Repr

/-- The lengths R94 gives the byte strings: 32, 48 or 64 hex digits of a key, 32 of a block. -/
def HostLine.wellFormed : HostLine → Bool
  | .loadKey bs => bs.length == 16 || bs.length == 24 || bs.length == 32
  | .loadBlock bs => bs.length == 16
  | .readBlock h => h.all fun bs => bs.length == 16
  | .wr _ _ => true
  | .rd _ _ => true
  | .turns _ => true
  | .nop => true
  | .expand _ => true
  | .encrypt => true
  | .decrypt => true
  | .invsched => true

/-- `BLOCKc` = 0x04 + c. -/
def blockAddr (c : Nat) : Addr := BitVec.ofNat 7 (0x04 + c)

/-- `KEYi` = 0x08 + i. -/
def keyAddr (i : Nat) : Addr := BitVec.ofNat 7 (0x08 + i)

/-- `Wi` = 0x40 + i. -/
def schedAddr (i : Nat) : Addr := BitVec.ofNat 7 (0x40 + i)

/-- The writes of words v_0, v_1, ... to consecutive registers. -/
def writesFrom (addr : Nat → Addr) (ws : List Word) : List HostOp :=
  ws.zipIdx.map fun p => writeOp (addr p.2) p.1

/-- `RD BLOCKc`, with the word c of the block h asserted. -/
def readBlockOp (h : Option (List Byte)) (c : Nat) : HostOp :=
  readOp (blockAddr c) (h.map fun bs => wordOfBytes bs c)

/-- The operations of a line, by the expansions of R94. -/
def HostLine.ops : HostLine → List HostOp
  | .wr a v => [writeOp a v]
  | .rd a v => [readOp a v]
  | .turns n => List.replicate n ⟨.core, none⟩
  | .nop => [writeOp 0 (ctrlWord 0 0)]
  | .expand k => [writeOp 0 (ctrlWord 1 k.code)]
  | .encrypt => [writeOp 0 (ctrlWord 2 0)]
  | .decrypt => [writeOp 0 (ctrlWord 3 0)]
  | .invsched => [writeOp 0 (ctrlWord 4 0)]
  | .loadKey bs => writesFrom keyAddr (keyOfBytes bs)
  | .loadBlock bs => writesFrom blockAddr (blockOfBytes bs).toList
  | .readBlock h => (List.range 4).map (readBlockOp h)

/-- The events of a line. -/
def HostLine.events (l : HostLine) : List Event := l.ops.map HostOp.event

/-! ### Running -/

/-- A program under way: the machine, the values the HOST has read, the oldest first, and whether every
assertion so far held. -/
structure HostRun where
  state : State
  reads : List Word
  held : Bool
deriving DecidableEq, Repr

/-- The outcome of a piece of a program. -/
abbrev RunResult := Host.Outcome HostRun Fault Refusal

/-- A program about to begin. -/
def HostRun.start (s : State) : HostRun := ⟨s, [], true⟩

/-- The values of four reads of BLOCK, as the 16 bytes R94 compares (20_memory.md R56). -/
def bytesOfReads (reads : List Word) : List Byte := reads.flatMap bytesOfWord

/-- Go on from the next state, if there is one. -/
def andThenRun (r : RunResult) (f : HostRun → RunResult) : RunResult :=
  match r with
  | .next h => f h
  | .fault x => .fault x
  | .refused x => .refused x

/-- One event, whatever else is to come. -/
def runEvent (e : Event) (s : State) : Result :=
  match e with
  | .host p => hostCycle p s
  | .core => coreStep s

/-- What the HOST knows after an operation that led to t: a read adds the value on `rdata`, and an asserted
value is compared with it. -/
def HostRun.record (op : HostOp) (t : State) (r : HostRun) : HostRun where
  state := t
  reads := if op.event.isRead then r.reads ++ [t.rdata] else r.reads
  held := r.held && op.asserted.all fun v => t.rdata == v

/-- One operation. A failed assertion is recorded and the program goes on: the assertion is the HOST's, and
the core does not see it. -/
def runOp (op : HostOp) (r : HostRun) : RunResult :=
  match runEvent op.event r.state with
  | .next t => .next (r.record op t)
  | .fault x => .fault x
  | .refused x => .refused x

/-- Operations one after another, with no turn of the CORE between them but those that stand in the list:
20_memory.md R62 allows any number, and none is the model's choice (log entry 5). -/
def runOps : List HostOp → HostRun → RunResult
  | [], r => .next r
  | op :: ops, r => andThenRun (runOp op r) (runOps ops)

/-- `WAIT`: repeat `RD STATUS` until bit 0 of the value read is 0, with a turn of the CORE between two reads
(the fairness of 20_memory.md R62; log entry 5). At most n reads. -/
def waitUntilIdle : Nat → HostRun → RunResult
  | 0, r => .next r
  | n + 1, r =>
    andThenRun (runOp (readOp 0x01 none) r) fun q =>
      if q.state.rdata.getLsbD 0 then
        andThenRun (runOp ⟨.core, none⟩ q) (waitUntilIdle n)
      else .next q

/-- A line of a host program, or `WAIT`. -/
inductive HostAction where
  | line (l : HostLine)
  | wait
deriving DecidableEq, Repr

/-- What an action does. No operation takes more than 120 turns (70_reset_and_hazards.md R241), so 121 reads
are enough for every `WAIT`. -/
def HostAction.run : HostAction → HostRun → RunResult
  | .line l => runOps l.ops
  | .wait => waitUntilIdle 121

/-- The actions of a host program, in its order. Between two of them the CORE takes no turn: the model's
choice among the numbers R62 allows (log entry 5); a `STEP n` line puts n turns there. -/
def runActions : List HostAction → HostRun → RunResult
  | [], r => .next r
  | a :: as, r => andThenRun (a.run r) (runActions as)

/-- A host program from state s. -/
def runProgram (as : List HostAction) (s : State) : RunResult := runActions as (.start s)

end Sys2Proof.Machine
end

