-- ==== Sys2Proof/Safety.lean ====
section
/-! DEFINITION. What a sound state of the core is: the invariants of 10_state.md R34. -/

namespace Sys2Proof.Machine

/-- The control invariants: R34 (a) to (d) and (g), "BUSY and DONE are never both 1" (R29), the ranges
of RC and KI (R25, R27), and the three facts about registers that an operation does not use, which
make the whole an invariant of single steps. R34 (f) holds of every `State` by its types. -/
structure ControlSound (s : State) : Prop where
  /-- R34 (a) -/
  busy_iff_op : s.busy = true ↔ s.op ≠ .idle
  /-- R34 (b) -/
  idle_cleared : s.busy = false → s.rc = 0 ∧ s.ki = 0 ∧ s.ph = .compute
  /-- R34 (c) -/
  cipher_tag : s.op = .cipher → s.tag = s.dir.kind
  /-- R34 (d) -/
  schedule_tag : s.op = .expand ∨ s.op = .invsched → s.tag = .none
  /-- R34 (g) -/
  errcode_iff_err : s.errcode = none ↔ s.err = false
  /-- R29 -/
  not_busy_and_done : ¬(s.busy = true ∧ s.done = true)
  /-- R25: RC stays within 0..Nr -/
  rc_within : s.rc.val ≤ s.nk.nr
  /-- R27: KI never exceeds LAST -/
  ki_within : s.ki.val ≤ s.nk.last
  /-- a cipher operation leaves KI and PH at 0 (R165) -/
  cipher_others : s.op = .cipher → s.ki = 0 ∧ s.ph = .compute
  /-- EXPAND and INVSCHED leave RC at 0 (R144, R149) -/
  schedule_others : s.op = .expand ∨ s.op = .invsched → s.rc = 0
  /-- EXPAND leaves PH at 0 (R144) -/
  expand_phase : s.op = .expand → s.ph = .compute

/-- The first n words of W. -/
def State.schedTo (s : State) (n : Nat) : List Word := s.sched.take n

/-- The first n words of T. -/
def State.scratchTo (s : State) (n : Nat) : List Word := s.t.toList.take n

/-- The forward schedule of a key for the latched key size. -/
def State.forwardOf (s : State) (key : List Word) : List Word := expand key s.nk.nk

/-- The inverse schedule of a key for the latched key size. -/
def State.inverseOf (s : State) (key : List Word) : List Word := invsched (expand key s.nk.nk) s.nk.nr

/-- What W and T hold (R34 (e)): a schedule marked by TAG is the complete schedule of that kind for some
key, and an operation in progress has produced its words up to KI. -/
structure ScheduleSound (s : State) : Prop where
  /-- TAG = FWD: W holds a complete forward schedule -/
  forward : s.tag = .fwd → ∃ key, s.schedTo (s.nk.last + 1) = s.forwardOf key
  /-- TAG = INV: W holds a complete inverse schedule -/
  inverse : s.tag = .inv → ∃ key, s.schedTo (s.nk.last + 1) = s.inverseOf key
  /-- EXPAND: the first KI words are KEY's schedule -/
  expanding : s.op = .expand → s.schedTo s.ki.val = (s.forwardOf s.keyWords).take s.ki.val
  /-- INVSCHED, compute: W is still a forward schedule, and the first KI words of T its inverse -/
  computing : s.op = .invsched → s.ph = .compute → ∃ key,
    s.schedTo (s.nk.last + 1) = s.forwardOf key
      ∧ s.scratchTo s.ki.val = (s.inverseOf key).take s.ki.val
  /-- INVSCHED, copy: T holds the inverse schedule, and the first KI words of W are its -/
  copying : s.op = .invsched → s.ph = .copy → ∃ key,
    s.scratchTo (s.nk.last + 1) = s.inverseOf key
      ∧ s.schedTo s.ki.val = (s.inverseOf key).take s.ki.val

/-- Both. -/
structure Sound (s : State) : Prop where
  control : ControlSound s
  schedule : ScheduleSound s

/-! ### The next event -/

/-- A step's next event is a host cycle with these pins. -/
def nextIsHost (s : State) (p : Pins) : Prop :=
  ∃ rest, s.pending = .host p :: rest

/-- A step's next event is a turn of the CORE: it is pending, or nothing is and BUSY = 1. -/
def nextIsCore (s : State) : Prop :=
  (∃ rest, s.pending = .core :: rest) ∨ (s.pending = [] ∧ s.busy = true)

/-- The next event is a host cycle with `rst`. -/
def nextIsReset (s : State) : Prop := ∃ p, nextIsHost s p ∧ p.rst = true

/-- The next event is a write to address a that no reset discards. -/
def nextIsWrite (s : State) (a : Nat) : Prop :=
  ∃ p, nextIsHost s p ∧ p.rst = false ∧ p.sel = true ∧ p.we = true ∧ p.addr.toNat = a

/-! ### Relations between states -/

/-- Two contents of T that agree on what the INVSCHED in progress has already written there. -/
def scratchAgrees (s : State) (t' : Vector Word 60) : Prop :=
  s.op = .invsched →
    (s.ph = .compute → ∀ j : Fin 60, j < s.ki → t'[j] = s.t[j])
    ∧ (s.ph = .copy → ∀ j : Fin 60, j.val ≤ s.nk.last → t'[j] = s.t[j])

end Sys2Proof.Machine
end

