-- ==== Sys2Proof/Certificates/Slice0/Obligations.lean ====
section
/-! DEFINITION. The statements for the provers. Each docstring names the rule of spec/ it formalises. -/

open Sys2Proof Sys2Proof.Machine

/-! ### Encodings -/

/-- Every well-formed row, with every operand at every value, is what its code decodes to (R81, R82, R90,
R91, R95). -/
def Obligations.EncodedInstrDecodesBack : Prop :=
  ∀ i : Instr, i.wellFormed = true → decode (encode i) = .ok i

/-- R95: the decoder answers the one row of the table that the code selects, and only with a well-formed
instruction; it rejects exactly the codes that select no row and the word 0x00000031 (EXPAND with KS = 3). -/
def Obligations.DecoderFollowsTheTable : Prop :=
  (∀ c i, decode c = .ok i → i.wellFormed = true ∧ i.row.selects c = true
      ∧ ∀ j : Instr, j.row.selects c = true → j.row = i.row)
  ∧ ∀ c, (∃ r, decode c = .error r) ↔
      ((∀ j : Instr, j.row.selects c = false) ∨ c = .ctrl 0x00000031)

/-- R203, and R204 for the one word refused for its key size: with BUSY = 0, a write of any other word to
CTRL is refused with ILLEGAL_CMD. -/
def Obligations.LegalCtrlWordsAreTheEight : Prop :=
  ∀ v : Word,
    (decodeCtrl v = .error .illegalCmd ↔
      v ∉ [0x00000000, 0x00000001, 0x00000011, 0x00000021, 0x00000031, 0x00000002, 0x00000003,
        0x00000004])
    ∧ (decodeCtrl v = .error .illegalKeysize ↔ v = 0x00000031)
    ∧ ∀ s : State, s.busy = false →
        v ∉ [0x00000000, 0x00000001, 0x00000011, 0x00000021, 0x00000031, 0x00000002, 0x00000003,
          0x00000004] →
        exec (.wr 0x00 v) s = .next (s.raise .illegalCmd)

/-- Codes written out from the spec's encodings: PORT (R81), CTRL (R83), SSEL (R90), KSEL (R91). -/
def Obligations.SampleCodesDecode : Prop :=
  decode (.port 0b100000001#9 0) = .ok (.rd 0x01)
  ∧ decode (.port 0b110000100#9 0x33221100) = .ok (.wr 0x04 0x33221100)
  ∧ decode (.port 0b010000100#9 0) = .ok (.idle true 0x04)
  ∧ decode (.ctrl 0x00000000) = .ok .nop
  ∧ decode (.ctrl 0x00000021) = .ok (.expand 2)
  ∧ decode (.ctrl 0x00000002) = .ok .encrypt
  ∧ decode (.ctrl 0x00000003) = .ok .decrypt
  ∧ decode (.ctrl 0x00000004) = .ok .invsched
  ∧ decode (.ctrl 0x00000012) = .error (.ctrl .illegalCmd)
  ∧ decode (.ssel 3) = .ok .full
  ∧ decode (.ssel 5) = .error .unusedSelect
  ∧ decode (.ksel 2) = .ok .rotsub

/-! ### Steps -/

/-- A step runs the row its event carries. A host cycle without `rst` latches the pins, leaves `rdata` to
the operation (a free value, log entry 3) and runs the PORT row of the pins; when the pins write a legal
word to CTRL this is the CTRL row, and when they are an accepted write to BLOCK it is HOSTWR. A turn of
the CORE runs the row that its state selects, HOLD with OP = IDLE, and one of the two INVSCHED
micro-steps, which have no row. With nothing pending a busy CORE takes a turn and otherwise the port is
quiet (log entry 5). -/
def Obligations.StepRunsTheDecodedInstruction : Prop :=
  (∀ s p rest, s.pending = .host p :: rest → p.rst = false →
    step s = exec (decodePort (portCode p.sel p.we p.addr) p.wdata)
      { s with
        pending := rest, pins := p, rdata := Config.undrivenRdata s.fresh, fresh := s.fresh + 1 })
  ∧ (∀ s v rest i, s.pending = .host ⟨false, true, true, 0x00, v⟩ :: rest → decode (.ctrl v) = .ok i →
    step s = exec i
      { s with
        pending := rest, pins := ⟨false, true, true, 0x00, v⟩,
        rdata := Config.undrivenRdata s.fresh, fresh := s.fresh + 1 })
  ∧ (∀ s p rest, s.pending = .host p :: rest → acceptsBlockWrite s p = true →
    step s = exec .hostwr
      { s with
        pending := rest, pins := p, rdata := Config.undrivenRdata s.fresh, fresh := s.fresh + 1 })
  ∧ (∀ s rest, s.pending = .core :: rest → step s = coreStep { s with pending := rest })
  ∧ (∀ s, s.pending = [] → s.busy = true → step s = coreStep s)
  ∧ (∀ s, s.pending = [] → s.busy = false →
    step s = exec (.idle false 0)
      { s with
        pins := ⟨false, false, false, 0, 0⟩,
        rdata := Config.undrivenRdata s.fresh, fresh := s.fresh + 1 })
  ∧ (∀ s, s.op = .idle → coreStep s = exec .hold s)
  ∧ (∀ s, s.op = .cipher → coreStep s = exec (cipherSelect s).toInstr s)
  ∧ (∀ s, s.op = .expand → coreStep s = exec (expandSelect s).toInstr s)
  ∧ (∀ s, s.op = .invsched → s.ph = .compute → coreStep s = .next s.invschedCompute)
  ∧ (∀ s, s.op = .invsched → s.ph = .copy → coreStep s = .next s.invschedCopy)

/-- R209, "No encoding makes the core hang" (R92): every instruction, every micro-step and every step
answers a next state, in every state. That a select row does so outside its condition, where the core never
generates it, is the model's choice (log entry 8). -/
def Obligations.EveryStepGoesOn : Prop :=
  (∀ i s, ∃ t, exec i s = .next t) ∧ (∀ s, ∃ t, coreStep s = .next t)
    ∧ (∀ p s, ∃ t, hostCycle p s = .next t) ∧ (∀ s, ∃ t, step s = .next t)

/-! ### The host port -/

/-- R81, the row `sel` = 0: no operation, `we` and `addr` are ignored, `rdata` is 0. -/
def Obligations.IdleDrivesZeroOnly : Prop :=
  ∀ we a s, exec (.idle we a) s = .next { s with rdata := 0 }

/-- R180, for every address and whatever BUSY is. -/
def Obligations.ReadReturnsTheAddressedRegister : Prop :=
  ∀ (a : Addr) (s : State), ∃ v : Word,
    exec (.rd a) s = .next { s with rdata := v }
    ∧ (a.toNat = 0x01 → v = statusWord s)
    ∧ (∀ c : Fin 4, a.toNat = 0x04 + c.val → v = s.blk[c])
    ∧ (∀ i : Fin 8, a.toNat = 0x08 + i.val → v = s.key[i])
    ∧ (∀ i : Fin 60, a.toNat = 0x40 + i.val → v = s.w[i])
    ∧ (a.toNat = 0x00 ∨ a.toNat = 0x02 ∨ a.toNat = 0x03 ∨ (0x10 ≤ a.toNat ∧ a.toNat ≤ 0x3F)
        ∨ 0x7C ≤ a.toNat → v = 0)

/-- R84: the fields of STATUS, the reserved bits, and the formula. -/
def Obligations.StatusWordLayout : Prop :=
  ∀ s : State,
    (statusWord s).getLsbD 0 = s.busy
    ∧ (statusWord s).getLsbD 1 = s.done
    ∧ (statusWord s).getLsbD 2 = s.err
    ∧ (statusWord s).getLsbD 3 = false
    ∧ (statusWord s).extractLsb' 4 2 = s.tag.code
    ∧ (statusWord s).extractLsb' 6 2 = s.nk.code
    ∧ (statusWord s).extractLsb' 8 4 = BitVec.ofNat 4 s.rc.val
    ∧ (statusWord s).extractLsb' 12 3 = errcodeBits s.errcode
    ∧ (statusWord s).extractLsb' 15 17 = 0
    ∧ (statusWord s).toNat = s.busy.toNat + 2 * s.done.toNat + 4 * s.err.toNat
        + 16 * s.tag.code.toNat + 64 * s.nk.code.toNat + 256 * s.rc.val
        + 4096 * (errcodeBits s.errcode).toNat

/-- R181, every address: BUSY_VIOLATION first; the words of S and KEY; CTRL; everything else is
BAD_ACCESS. -/
def Obligations.WriteFollowsItsRule : Prop :=
  ∀ (a : Addr) (v : Word) (s : State),
    (s.busy = true → exec (.wr a v) s = .next (s.raise .busyViolation))
    ∧ (s.busy = false →
        (∀ c : Fin 4, a.toNat = 0x04 + c.val →
          exec (.wr a v) s = .next { s with blk := s.blk.set c.val v c.isLt })
        ∧ (∀ i : Fin 8, a.toNat = 0x08 + i.val →
          exec (.wr a v) s = .next { s with key := s.key.set i.val v i.isLt })
        ∧ (a.toNat = 0x00 → exec (.wr a v) s = dispatch v s)
        ∧ (a.toNat = 0x01 ∨ a.toNat = 0x02 ∨ a.toNat = 0x03 ∨ 0x10 ≤ a.toNat →
          exec (.wr a v) s = .next (s.raise .badAccess)))

/-- R182, the whole decision, as one chain in the rule's order. -/
def Obligations.CtrlWriteFollowsTheDispatchOrder : Prop :=
  ∀ (v : Word) (s : State), s.busy = false →
    exec (.wr 0x00 v) s =
      if v.getLsbD 3 = true ∨ v.extractLsb' 6 26 ≠ 0 ∨ 5 ≤ (v.extractLsb' 0 3).toNat
          ∨ (v.extractLsb' 0 3 ≠ 1 ∧ v.extractLsb' 4 2 ≠ 0) then
        .next (s.raise .illegalCmd)
      else if v.extractLsb' 0 3 = 0 then .next s
      else if v.extractLsb' 0 3 = 1 ∧ v.extractLsb' 4 2 = 3 then .next (s.raise .illegalKeysize)
      else if v.extractLsb' 0 3 = 1 then
        .next { s with
          nk := if v.extractLsb' 4 2 = 0 then .k128 else if v.extractLsb' 4 2 = 1 then .k192 else .k256
          op := .expand, ki := 0, tag := .none, busy := true, done := false }
      else if v.extractLsb' 0 3 = 2 ∧ s.tag = .fwd then
        .next { s with op := .cipher, dir := .forward, busy := true, done := false }
      else if v.extractLsb' 0 3 = 3 ∧ s.tag = .inv then
        .next { s with op := .cipher, dir := .inverse, busy := true, done := false }
      else if v.extractLsb' 0 3 = 4 ∧ s.tag = .fwd then
        .next { s with
          op := .invsched, ki := 0, ph := .compute, tag := .none, busy := true, done := false }
      else .next (s.raise .schedMismatch)

/-! ### Refusals -/

/-- R200: the whole effect of a refusal, the first cause being kept; it is raised by no read, by no idle
cycle and by no micro-step; and an accepted write raises none. -/
def Obligations.RefusalRecordsTheFirstCauseOnly : Prop :=
  (∀ c (s : State), s.raise c = { s with err := true, errcode := if s.err then s.errcode else some c })
  ∧ (∀ s t, coreStep s = .next t → t.err = s.err ∧ t.errcode = s.errcode)
  ∧ (∀ s t we a, exec (.idle we a) s = .next t → t.err = s.err ∧ t.errcode = s.errcode)
  ∧ (∀ s t a, exec (.rd a) s = .next t → t.err = s.err ∧ t.errcode = s.errcode)
  ∧ (∀ s t a v, exec (.wr a v) s = .next t →
      (∃ c, t = s.raise c) ∨ (t.err = s.err ∧ t.errcode = s.errcode))

/-- R207: the code a refused write records when none was recorded before, first match wins, and no other
write raises ERR; a recorded code is left by every later write. -/
def Obligations.RefusalPriority : Prop :=
  (∀ (a : Addr) (v : Word) (s t : State), s.err = true → exec (.wr a v) s = .next t →
    t.err = true ∧ t.errcode = s.errcode)
  ∧ ∀ (a : Addr) (v : Word) (s : State), s.err = false → s.errcode = none → ∃ t,
    exec (.wr a v) s = .next t
    ∧ (t.err = true ↔ t.errcode ≠ none)
    ∧ t.errcode =
      if s.busy = true then some .busyViolation
      else if a.toNat = 0x01 ∨ a.toNat = 0x02 ∨ a.toNat = 0x03 ∨ 0x10 ≤ a.toNat then some .badAccess
      else if a.toNat ≠ 0x00 then none
      else if v ∉ [0x00000000, 0x00000001, 0x00000011, 0x00000021, 0x00000031, 0x00000002, 0x00000003,
          0x00000004] then some .illegalCmd
      else if v = 0x00000031 then some .illegalKeysize
      else if (v = 0x00000002 ∨ v = 0x00000004) ∧ s.tag ≠ .fwd then some .schedMismatch
      else if v = 0x00000003 ∧ s.tag ≠ .inv then some .schedMismatch
      else none

/-! ### The commands -/

/-- R183. -/
def Obligations.NopHasNoEffect : Prop :=
  ∀ s : State, exec (.wr 0x00 0x00000000) s = exec .nop s
    ∧ (s.busy = false → exec .nop s = .next s)
    ∧ (s.busy = true → exec .nop s = .next (s.raise .busyViolation))

/-- R143: the encoding, the checks in their order, and what acceptance writes. -/
def Obligations.ExpandAcceptance : Prop :=
  ∀ s : State,
    (∀ ks : BitVec 2, exec (.wr 0x00 (0x00000001 + 16 * ks.setWidth 32)) s = exec (.expand ks) s)
    ∧ (s.busy = true → ∀ ks, exec (.expand ks) s = .next (s.raise .busyViolation))
    ∧ (s.busy = false → ∀ v : Word, v.extractLsb' 0 3 = 1 →
        v.getLsbD 3 = true ∨ v.extractLsb' 6 26 ≠ 0 →
        exec (.wr 0x00 v) s = .next (s.raise .illegalCmd))
    ∧ (s.busy = false → exec (.expand 3) s = .next (s.raise .illegalKeysize))
    ∧ (s.busy = false → ∀ k : KeySize, exec (.expand k.code) s =
        .next { s with
          nk := k, op := .expand, ki := 0, tag := .none, busy := true, done := false })

/-- R163: the encoding, the checks in their order, and what acceptance writes. -/
def Obligations.EncryptAcceptance : Prop :=
  ∀ s : State,
    exec (.wr 0x00 0x00000002) s = exec .encrypt s
    ∧ (s.busy = true → exec .encrypt s = .next (s.raise .busyViolation))
    ∧ (s.busy = false → ∀ v : Word, v.extractLsb' 0 3 = 2 →
        v.getLsbD 3 = true ∨ v.extractLsb' 6 26 ≠ 0 ∨ v.extractLsb' 4 2 ≠ 0 →
        exec (.wr 0x00 v) s = .next (s.raise .illegalCmd))
    ∧ (s.busy = false → s.tag ≠ .fwd → exec .encrypt s = .next (s.raise .schedMismatch))
    ∧ (s.busy = false → s.tag = .fwd → exec .encrypt s =
        .next { s with op := .cipher, dir := .forward, busy := true, done := false })

/-- R164: the encoding, the checks in their order, and what acceptance writes. -/
def Obligations.DecryptAcceptance : Prop :=
  ∀ s : State,
    exec (.wr 0x00 0x00000003) s = exec .decrypt s
    ∧ (s.busy = true → exec .decrypt s = .next (s.raise .busyViolation))
    ∧ (s.busy = false → ∀ v : Word, v.extractLsb' 0 3 = 3 →
        v.getLsbD 3 = true ∨ v.extractLsb' 6 26 ≠ 0 ∨ v.extractLsb' 4 2 ≠ 0 →
        exec (.wr 0x00 v) s = .next (s.raise .illegalCmd))
    ∧ (s.busy = false → s.tag ≠ .inv → exec .decrypt s = .next (s.raise .schedMismatch))
    ∧ (s.busy = false → s.tag = .inv → exec .decrypt s =
        .next { s with op := .cipher, dir := .inverse, busy := true, done := false })

/-- R147: the encoding, the checks in their order, and what acceptance writes. -/
def Obligations.InvschedAcceptance : Prop :=
  ∀ s : State,
    exec (.wr 0x00 0x00000004) s = exec .invsched s
    ∧ (s.busy = true → exec .invsched s = .next (s.raise .busyViolation))
    ∧ (s.busy = false → ∀ v : Word, v.extractLsb' 0 3 = 4 →
        v.getLsbD 3 = true ∨ v.extractLsb' 6 26 ≠ 0 ∨ v.extractLsb' 4 2 ≠ 0 →
        exec (.wr 0x00 v) s = .next (s.raise .illegalCmd))
    ∧ (s.busy = false → s.tag ≠ .fwd → exec .invsched s = .next (s.raise .schedMismatch))
    ∧ (s.busy = false → s.tag = .fwd → exec .invsched s =
        .next { s with
          op := .invsched, ki := 0, ph := .compute, tag := .none, busy := true, done := false })

/-! ### The round driver -/

/-- R90: the codes, the value each loads into S, and when each is generated. HOSTWR's value is stated for
every idle state whose pins carry the address; where the pins are not those of an accepted write, it is the
model's choice (log entry 8). -/
def Obligations.StateSelectTable : Prop :=
  (decodeSsel 0 = .ok .hold ∧ decodeSsel 1 = .ok .hostwr ∧ decodeSsel 2 = .ok .init
    ∧ decodeSsel 3 = .ok .full ∧ decodeSsel 4 = .ok .last
    ∧ ∀ c : BitVec 3, 5 ≤ c.toNat → decodeSsel c = .error .unusedSelect)
  ∧ (∀ s : State, exec .hold s = .next s)
  ∧ (∀ (s : State) (c : Fin 4), s.busy = false → s.pins.addr.toNat = 0x04 + c.val →
      exec .hostwr s = .next { s with blk := s.blk.set c.val s.pins.wdata c.isLt })
  ∧ (∀ s : State, s.op = .cipher →
      (s.rc.val = 0 → ∃ t, exec .init s = .next t ∧ t.blk = addKey s.blk (slice s.sched 0))
      ∧ (1 ≤ s.rc.val → s.rc.val < s.nk.nr → ∃ t, exec .full s = .next t
          ∧ t.blk = addKey (colMix s.dir.poly (rowRotate s.dir.shift (substitute s.dir.table s.blk)))
              (slice s.sched s.rc.val))
      ∧ (s.rc.val = s.nk.nr → ∃ t, exec .last s = .next t
          ∧ t.blk = addKey (rowRotate s.dir.shift (substitute s.dir.table s.blk))
              (slice s.sched s.nk.nr)))
  ∧ (∀ (s : State) (p : Pins), eventSelect s (.host p) =
      if p.rst = false ∧ p.sel = true ∧ p.we = true ∧ s.busy = false
          ∧ 0x04 ≤ p.addr.toNat ∧ p.addr.toNat ≤ 0x07 then .hostwr else .hold)
  ∧ (∀ s : State, ControlSound s → eventSelect s .core =
      if s.op = .cipher then
        if s.rc.val = 0 then .init else if s.rc.val ≤ s.nk.nr - 1 then .full else .last
      else .hold)

/-- R166: what a step loads into S, whichever event comes next. The list of events is the model's rendering
of R62's order (log entry 5). There is no premise on RC: with OP = CIPHER and RC > Nr, which R166's table
does not name and no run reaches, LAST with slice Nr is the model's choice (log entries 8 and 15). -/
def Obligations.StateMultiplexer : Prop :=
  ∀ (s t : State) (e : Event) (rest : List Event), s.pending = e :: rest → step s = .next t →
    t.blk =
      match e with
      | .host p =>
        if p.rst then Vector.replicate 4 0
        else if p.sel = true ∧ p.we = true ∧ s.busy = false ∧ 0x04 ≤ p.addr.toNat
            ∧ p.addr.toNat ≤ 0x07 then
          s.blk.set ((p.addr.toNat - 0x04) % 4) p.wdata
        else s.blk
      | .core =>
        if s.op = .cipher then
          if s.rc.val = 0 then addKey s.blk (slice s.sched 0)
          else if s.rc.val < s.nk.nr then
            addKey (colMix s.dir.poly (rowRotate s.dir.shift (substitute s.dir.table s.blk)))
              (slice s.sched s.rc.val)
          else addKey (rowRotate s.dir.shift (substitute s.dir.table s.blk)) (slice s.sched s.nk.nr)
        else s.blk

/-- R165, with the tuple of R160 written out: the three cases of the cipher micro-step, and the row each
is. -/
def Obligations.CipherMicroStep : Prop :=
  ∀ s : State, s.op = .cipher →
    let tab := if s.dir = .forward then sbox else invSbox
    let sh := if s.dir = .forward then 1 else 3
    let poly := if s.dir = .forward then polyF else polyI
    let k := slice s.sched s.rc.val
    (s.rc.val = 0 → coreStep s = exec .init s
      ∧ exec .init s = .next { s with blk := addKey s.blk k, rc := 1 })
    ∧ (0 < s.rc.val → s.rc.val < s.nk.nr → ∃ r : Fin 15, r.val = s.rc.val + 1
      ∧ coreStep s = exec .full s
      ∧ exec .full s = .next { s with
          blk := addKey (colMix poly (rowRotate sh (substitute tab s.blk))) k, rc := r })
    ∧ (s.rc.val = s.nk.nr → coreStep s = exec .last s
      ∧ exec .last s = .next { s with
          blk := addKey (rowRotate sh (substitute tab s.blk)) k,
          rc := 0, op := .idle, busy := false, done := true })

/-! ### The key expander -/

/-- From R91: the codes, the condition of each, and what `W[i]` becomes. PLAIN's word is stated for every
`i >= Nk`, and every word whatever OP is: where another row is selected, or OP is not EXPAND, it is the
model's choice (log entry 8). -/
def Obligations.KeyExpanderSelectTable : Prop :=
  (decodeKsel 0 = .keycopy ∧ decodeKsel 1 = .plain ∧ decodeKsel 2 = .rotsub ∧ decodeKsel 3 = .subonly)
  ∧ (∀ s : State,
      (expandSelect s = .keycopy ↔ s.ki.val < s.nk.nk)
      ∧ (expandSelect s = .rotsub ↔ s.nk.nk ≤ s.ki.val ∧ s.ki.val % s.nk.nk = 0)
      ∧ (expandSelect s = .subonly ↔
          s.nk.nk ≤ s.ki.val ∧ 6 < s.nk.nk ∧ s.ki.val % s.nk.nk = 4)
      ∧ (expandSelect s = .plain ↔
          s.nk.nk ≤ s.ki.val ∧ s.ki.val % s.nk.nk ≠ 0 ∧ ¬(6 < s.nk.nk ∧ s.ki.val % s.nk.nk = 4)))
  ∧ (∀ s : State,
      (s.ki.val < s.nk.nk →
        ∃ t, exec .keycopy s = .next t ∧ t.w[s.ki] = s.key.toList.getD s.ki.val 0)
      ∧ (s.nk.nk ≤ s.ki.val →
        ∃ t, exec .plain s = .next t
          ∧ t.w[s.ki] = s.w.toList.getD (s.ki.val - s.nk.nk) 0 ^^^ s.w.toList.getD (s.ki.val - 1) 0)
      ∧ (s.nk.nk ≤ s.ki.val → s.ki.val % s.nk.nk = 0 →
        ∃ t, exec .rotsub s = .next t
          ∧ t.w[s.ki] = s.w.toList.getD (s.ki.val - s.nk.nk) 0
              ^^^ (subWord sbox (rotByte (s.w.toList.getD (s.ki.val - 1) 0))
                ^^^ rcon (s.ki.val / s.nk.nk - 1)))
      ∧ (s.nk.nk ≤ s.ki.val → 6 < s.nk.nk → s.ki.val % s.nk.nk = 4 →
        ∃ t, exec .subonly s = .next t
          ∧ t.w[s.ki] = s.w.toList.getD (s.ki.val - s.nk.nk) 0
              ^^^ subWord sbox (s.w.toList.getD (s.ki.val - 1) 0)))

/-- R144: the EXPAND micro-step, whole. -/
def Obligations.ExpandMicroStep : Prop :=
  ∀ s : State, s.op = .expand →
    let nk := 4 + 2 * s.nk.code.toNat
    let last := 4 * (nk + 6 + 1) - 1
    let i := s.ki.val
    let prev := s.w.toList.getD (i - 1) 0
    let v :=
      if i < nk then s.key.toList.getD i 0
      else s.w.toList.getD (i - nk) 0 ^^^
        (if i % nk = 0 then subWord sbox (rotByte prev) ^^^ rcon (i / nk - 1)
          else if 6 < nk ∧ i % nk = 4 then subWord sbox prev
          else prev)
    (i < last → ∃ j : Fin 60, j.val = i + 1
      ∧ coreStep s = .next { s with w := s.w.set i v s.ki.isLt, ki := j })
    ∧ (last ≤ i → coreStep s = .next { s with
        w := s.w.set i v s.ki.isLt, ki := 0, op := .idle, busy := false, done := true, tag := .fwd })

/-- From R148: the compute micro-step. There is no premise on KI: with KI > LAST, which no run reaches,
`Nr - i` is below 0 and R148 gives no source word; that the word is then `W[j mod 4]`, mixed, is the model's
choice (log entries 8 and 15). -/
def Obligations.InvschedComputeMicroStep : Prop :=
  ∀ s : State, s.op = .invsched → s.ph = .compute →
    let nr := 10 + 2 * s.nk.code.toNat
    let last := 4 * (nr + 1) - 1
    let j := s.ki.val
    let src := s.w.toList.getD (4 * (nr - j / 4) + j % 4) 0
    let v := if j / 4 = 0 ∨ j / 4 = nr then src else mixWord polyI src
    (j < last → ∃ n : Fin 60, n.val = j + 1
      ∧ coreStep s = .next { s with t := s.t.set j v s.ki.isLt, ki := n })
    ∧ (last ≤ j → coreStep s = .next { s with t := s.t.set j v s.ki.isLt, ki := 0, ph := .copy })

/-- R149: the copy micro-step. -/
def Obligations.InvschedCopyMicroStep : Prop :=
  ∀ s : State, s.op = .invsched → s.ph = .copy →
    let last := 4 * (10 + 2 * s.nk.code.toNat + 1) - 1
    let j := s.ki.val
    (j < last → ∃ n : Fin 60, n.val = j + 1
      ∧ coreStep s = .next { s with w := s.w.set j s.t[s.ki] s.ki.isLt, ki := n })
    ∧ (last ≤ j → coreStep s = .next { s with
        w := s.w.set j s.t[s.ki] s.ki.isLt, ki := 0, ph := .compute,
        op := .idle, busy := false, done := true, tag := .inv })

/-! ### Frames -/

/-- What the PORT and CTRL rows leave unchanged (R54, R143, R147, R163, R164, R180 to R183): W, T, RC and
the port's own state for all of them; every register for IDLE and RD; KEY and S word by word for WR; KEY
and S for the commands, which touch control registers only. -/
def Obligations.PortAndCommandRowsFrame : Prop :=
  (∀ i s t, (∃ we a, i = .idle we a) ∨ (∃ a, i = .rd a) → exec i s = .next t →
    t = { s with rdata := t.rdata })
  ∧ (∀ a v s t, exec (.wr a v) s = .next t →
    t.w = s.w ∧ t.t = s.t ∧ t.rc = s.rc ∧ t.pins = s.pins ∧ t.rdata = s.rdata
    ∧ t.pending = s.pending ∧ t.fresh = s.fresh
    ∧ (∀ c : Fin 4, a.toNat ≠ 0x04 + c.val → t.blk[c] = s.blk[c])
    ∧ (∀ i : Fin 8, a.toNat ≠ 0x08 + i.val → t.key[i] = s.key[i])
    ∧ (a.toNat ≠ 0x00 → t.nk = s.nk ∧ t.op = s.op ∧ t.ki = s.ki ∧ t.ph = s.ph ∧ t.dir = s.dir
        ∧ t.tag = s.tag ∧ t.busy = s.busy ∧ t.done = s.done))
  ∧ (∀ i s t, i = .nop ∨ (∃ ks, i = .expand ks) ∨ i = .encrypt ∨ i = .decrypt ∨ i = .invsched →
    exec i s = .next t →
    t.key = s.key ∧ t.blk = s.blk ∧ t.w = s.w ∧ t.t = s.t ∧ t.rc = s.rc ∧ t.pins = s.pins
    ∧ t.rdata = s.rdata ∧ t.pending = s.pending ∧ t.fresh = s.fresh
    ∧ ((∀ ks, i ≠ .expand ks) → t.nk = s.nk)
    ∧ (i ≠ .encrypt → i ≠ .decrypt → t.dir = s.dir)
    ∧ (i ≠ .invsched → t.ph = s.ph))

/-- What the SSEL rows leave unchanged: "It never writes W, T, KEY, NK, TAG, DIR, KI, PH, ERR" (R165), and
HOLD and HOSTWR nothing but S (R166). It is stated of every state; for a row run outside its condition,
which the core never generates and those rules do not speak of, it is the model's choice (log entry 8). -/
def Obligations.RoundDriverRowsFrame : Prop :=
  ∀ i s t, i = .hold ∨ i = .hostwr ∨ i = .init ∨ i = .full ∨ i = .last → exec i s = .next t →
    t.key = s.key ∧ t.w = s.w ∧ t.t = s.t ∧ t.nk = s.nk ∧ t.ki = s.ki ∧ t.ph = s.ph ∧ t.dir = s.dir
    ∧ t.tag = s.tag ∧ t.err = s.err ∧ t.errcode = s.errcode ∧ t.pins = s.pins ∧ t.rdata = s.rdata
    ∧ t.pending = s.pending ∧ t.fresh = s.fresh
    ∧ (i = .hold → t.blk = s.blk)
    ∧ (i = .hold ∨ i = .hostwr → t.rc = s.rc)
    ∧ (i ≠ .last → t.op = s.op ∧ t.busy = s.busy ∧ t.done = s.done)

/-- What the KSEL rows and the INVSCHED micro-steps leave unchanged: every word of W (or of T) but the one
at KI, and "S, T, RC, KEY, NK, ERR" (R144), "S, KEY, RC, NK, ERR" (R149). The KSEL clause is stated of every
state; for a row that is not selected, or with OP other than EXPAND, which R144 does not speak of, it is the
model's choice (log entry 8). -/
def Obligations.KeyExpanderStepsFrame : Prop :=
  (∀ i s t, i = .keycopy ∨ i = .plain ∨ i = .rotsub ∨ i = .subonly → exec i s = .next t →
    t.key = s.key ∧ t.blk = s.blk ∧ t.t = s.t ∧ t.rc = s.rc ∧ t.nk = s.nk ∧ t.ph = s.ph
    ∧ t.dir = s.dir ∧ t.err = s.err ∧ t.errcode = s.errcode ∧ t.pins = s.pins ∧ t.rdata = s.rdata
    ∧ t.pending = s.pending ∧ t.fresh = s.fresh
    ∧ (∀ j : Fin 60, j ≠ s.ki → t.w[j] = s.w[j])
    ∧ (s.ki.val < s.nk.last →
        t.op = s.op ∧ t.tag = s.tag ∧ t.busy = s.busy ∧ t.done = s.done))
  ∧ (∀ s t, s.op = .invsched → coreStep s = .next t →
    t.key = s.key ∧ t.blk = s.blk ∧ t.rc = s.rc ∧ t.nk = s.nk ∧ t.dir = s.dir
    ∧ t.err = s.err ∧ t.errcode = s.errcode ∧ t.pins = s.pins ∧ t.rdata = s.rdata
    ∧ t.pending = s.pending ∧ t.fresh = s.fresh
    ∧ (s.ph = .compute → t.w = s.w) ∧ (s.ph = .copy → t.t = s.t)
    ∧ (∀ j : Fin 60, j ≠ s.ki → t.w[j] = s.w[j] ∧ t.t[j] = s.t[j]))

/-! ### Who writes what, over every step -/

/-- "no CORE step ever writes KEY" (R21): a word of KEY changes only by reset or by a write to its address
while BUSY = 0; a word of S only so or by a cipher micro-step (R22). -/
def Obligations.KeyAndBlockWriters : Prop :=
  ∀ s t, step s = .next t →
    (∀ i : Fin 8, t.key[i] ≠ s.key[i] →
      nextIsReset s ∨ (s.busy = false ∧ nextIsWrite s (0x08 + i.val)))
    ∧ (∀ c : Fin 4, t.blk[c] ≠ s.blk[c] →
      nextIsReset s ∨ (s.busy = false ∧ nextIsWrite s (0x04 + c.val))
        ∨ (nextIsCore s ∧ s.op = .cipher))

/-- "W is written only by EXPAND micro-steps ... and by the copy phase of INVSCHED" (R23) and T only by its
compute phase (R24), each at KI; besides these, only reset changes them. -/
def Obligations.ScheduleMemoryWriters : Prop :=
  ∀ s t, step s = .next t →
    (∀ j : Fin 60, t.w[j] ≠ s.w[j] → nextIsReset s
      ∨ (nextIsCore s ∧ j = s.ki ∧ (s.op = .expand ∨ (s.op = .invsched ∧ s.ph = .copy))))
    ∧ (∀ j : Fin 60, t.t[j] ≠ s.t[j] → nextIsReset s
      ∨ (nextIsCore s ∧ j = s.ki ∧ s.op = .invsched ∧ s.ph = .compute))

/-- NK is "Written only when an EXPAND command is accepted" (R26), RC "only by cipher micro-steps" (R25),
TAG only by EXPAND and INVSCHED (R28), DIR only when a cipher command is accepted (R27); besides these,
only reset. -/
def Obligations.ControlRegisterWriters : Prop :=
  ∀ s t, step s = .next t → ¬nextIsReset s →
    (t.nk ≠ s.nk → s.busy = false ∧ nextIsWrite s 0x00 ∧ t.op = .expand)
    ∧ (t.rc ≠ s.rc → nextIsCore s ∧ s.op = .cipher)
    ∧ (t.tag ≠ s.tag →
        (s.busy = false ∧ nextIsWrite s 0x00 ∧ t.tag = .none ∧ (t.op = .expand ∨ t.op = .invsched))
        ∨ (nextIsCore s ∧ s.op = .expand ∧ t.tag = .fwd ∧ t.op = .idle)
        ∨ (nextIsCore s ∧ s.op = .invsched ∧ t.tag = .inv ∧ t.op = .idle))
    ∧ (t.dir ≠ s.dir → s.busy = false ∧ nextIsWrite s 0x00 ∧ t.op = .cipher)

/-- DONE (R29, R211): set only by a last micro-step, cleared only by acceptance or reset. -/
def Obligations.DoneFollowsOperations : Prop :=
  ∀ s t, step s = .next t → ¬nextIsReset s →
    (s.done = false → t.done = true → nextIsCore s ∧ s.op ≠ .idle ∧ t.op = .idle ∧ t.busy = false)
    ∧ (s.done = true → t.done = false →
        s.busy = false ∧ nextIsWrite s 0x00 ∧ t.op ≠ .idle ∧ t.busy = true)

/-! ### Refusals over every step -/

/-- R208: "ERR and ERRCODE are cleared only by reset", and the first cause is kept. -/
def Obligations.ErrIsStickyUntilReset : Prop :=
  ∀ s t, step s = .next t → s.err = true →
    (¬nextIsReset s → t.err = true ∧ t.errcode = s.errcode)
    ∧ (nextIsReset s → t.err = false ∧ t.errcode = none)

/-- R208: "A set ERR blocks nothing": a step from a state with any other ERR and ERRCODE gives the same
next state but for ERR, ERRCODE and what a read of STATUS returns. -/
def Obligations.ErrNeverInfluences : Prop :=
  ∀ s t e c, step s = .next t → ∃ e' c' r,
    step { s with err := e, errcode := c } = .next { t with err := e', errcode := c', rdata := r }

/-! ### Isolation -/

/-- R54: a read is without effect, whatever its address and whatever BUSY is: only the port's own state
changes (`pins`, `rdata` and the counter of free values, which are the model's, log entries 2 to 4). -/
def Obligations.ReadsChangeNothing : Prop :=
  ∀ p s, p.rst = false → p.sel = true → p.we = false → ∃ v,
    hostCycle p s = .next { s with pins := p, rdata := v, fresh := s.fresh + 1 }

/-- R60, R200: an operation in progress "continues undisturbed". A host cycle while BUSY = 1 changes
nothing but ERR, ERRCODE and the port's own state, and the micro-step that follows it is the one that
would have come without it. -/
def Obligations.HostCycleNeverDisturbsTheOperation : Prop :=
  ∀ p s, s.busy = true → p.rst = false → ∃ e c r,
    hostCycle p s =
      .next { s with err := e, errcode := c, pins := p, rdata := r, fresh := s.fresh + 1 }
    ∧ ∀ t, coreStep s = .next t →
      coreStep { s with err := e, errcode := c, pins := p, rdata := r, fresh := s.fresh + 1 } =
        .next { t with err := e, errcode := c, pins := p, rdata := r, fresh := s.fresh + 1 }

/-- R21, R232: outside an EXPAND the contents of KEY reach nothing but KEY itself and what a read of KEY
returns. -/
def Obligations.KeyMattersOnlyToExpand : Prop :=
  ∀ s t k, s.op ≠ .expand → step s = .next t → ∃ k' r,
    step { s with key := k } = .next { t with key := k', rdata := r }

/-- R24: "Its contents between operations have no effect on any later result". Two states that differ only
in words of T which no INVSCHED in progress has written give next states that again differ only so; the
relation is kept by every step, so no run can tell them apart but in T. -/
def Obligations.ScratchContentsNeverMatter : Prop :=
  ∀ s t (x : Vector Word 60), ControlSound s → scratchAgrees s x → step s = .next t →
    ∃ y, step { s with t := x } = .next { t with t := y } ∧ scratchAgrees t y

/-! ### Results of the operations -/

/-- R145: an accepted EXPAND and its LAST + 1 micro-steps. -/
def Obligations.ExpandResult : Prop :=
  ∀ (s : State) (k : KeySize), ControlSound s → s.busy = false → ∃ w : Vector Word 60,
    andThen (exec (.expand k.code) s) (coreTurns (k.last + 1)) =
      .next { s with
        w := w, nk := k, tag := .fwd, busy := false, done := true, op := .idle, ki := 0, rc := 0 }
    ∧ w.toList.take (k.last + 1) = expand (s.key.toList.take k.nk) k.nk
    ∧ (expand (s.key.toList.take k.nk) k.nk).length = 4 * (k.nr + 1)
    ∧ ∀ j : Fin 60, k.last < j.val → w[j] = s.w[j]

/-- R150: an accepted INVSCHED and its 2*(LAST + 1) micro-steps. -/
def Obligations.InvschedResult : Prop :=
  ∀ s : State, ControlSound s → s.busy = false → s.tag = .fwd → ∃ w x : Vector Word 60,
    andThen (exec .invsched s) (coreTurns (2 * (s.nk.last + 1))) =
      .next { s with
        w := w, t := x, tag := .inv, busy := false, done := true, op := .idle, ki := 0, ph := .compute,
        rc := 0 }
    ∧ w.toList.take (s.nk.last + 1) = invsched (s.w.toList.take (s.nk.last + 1)) s.nk.nr
    ∧ x.toList.take (s.nk.last + 1) = invsched (s.w.toList.take (s.nk.last + 1)) s.nk.nr
    ∧ ∀ j : Fin 60, s.nk.last < j.val → w[j] = s.w[j] ∧ x[j] = s.t[j]

/-- R167: an accepted ENCRYPT or DECRYPT and its Nr + 1 micro-steps. -/
def Obligations.CipherResult : Prop :=
  ∀ s : State, ControlSound s → s.busy = false →
    (s.tag = .fwd →
      andThen (exec .encrypt s) (coreTurns (s.nk.nr + 1)) =
        .next { s with
          blk := cipher s.blk (s.w.toList.take (4 * (s.nk.nr + 1))) s.nk.nr .forward,
          dir := .forward, rc := 0, op := .idle, busy := false, done := true })
    ∧ (s.tag = .inv →
      andThen (exec .decrypt s) (coreTurns (s.nk.nr + 1)) =
        .next { s with
          blk := cipher s.blk (s.w.toList.take (4 * (s.nk.nr + 1))) s.nk.nr .inverse,
          dir := .inverse, rc := 0, op := .idle, busy := false, done := true })

/-- R169, both directions: for every key, key size and block. -/
def Obligations.DecryptUndoesEncrypt : Prop :=
  ∀ (key : List Word) (k : KeySize) (x : Block),
    cipher (cipher x (expand key k.nk) k.nr .forward) (invsched (expand key k.nk) k.nr) k.nr .inverse = x
    ∧ cipher (cipher x (invsched (expand key k.nk) k.nr) k.nr .inverse) (expand key k.nk) k.nr .forward
      = x

/-- R169 on the machine: EXPAND, ENCRYPT, INVSCHED, DECRYPT, each followed by its micro-steps, leave S as it
was, for every KEY, key size and block. -/
def Obligations.MachineRoundTrip : Prop :=
  ∀ (s : State) (k : KeySize), ControlSound s → s.busy = false →
    let expanded := andThen (exec (.expand k.code) s) (coreTurns (k.last + 1))
    let encrypted := andThen (andThen expanded (exec .encrypt)) (coreTurns (k.nr + 1))
    let inverted := andThen (andThen encrypted (exec .invsched)) (coreTurns (2 * (k.last + 1)))
    let decrypted := andThen (andThen inverted (exec .decrypt)) (coreTurns (k.nr + 1))
    (∃ t, encrypted = .next t
      ∧ t.blk = cipher s.blk (expand (s.key.toList.take k.nk) k.nk) k.nr .forward)
    ∧ ∃ t, decrypted = .next t ∧ t.blk = s.blk ∧ t.key = s.key ∧ t.err = s.err

/-- R209: an operation in progress ends after exactly the micro-steps its rule has left, and not before;
the counts of an accepted operation are those of R241. -/
def Obligations.OperationEndsAfterItsCount : Prop :=
  ∀ s : State, ControlSound s → s.busy = true →
    let n :=
      match s.op with
      | .idle => 0
      | .expand => s.nk.last + 1 - s.ki.val
      | .cipher => s.nk.nr + 1 - s.rc.val
      | .invsched =>
        match s.ph with
        | .compute => (s.nk.last + 1 - s.ki.val) + (s.nk.last + 1)
        | .copy => s.nk.last + 1 - s.ki.val
    (∀ m, m < n → ∃ t, coreTurns m s = .next t ∧ t.busy = true ∧ t.done = false)
    ∧ (∃ t, coreTurns n s = .next t ∧ t.busy = false ∧ t.done = true)
    ∧ 1 ≤ n ∧ n ≤ 120

/-- R170, the three standard vectors, as byte sequences. -/
def Obligations.StandardVectors : Prop :=
  let plain : List Byte :=
    [0x00, 0x11, 0x22, 0x33, 0x44, 0x55, 0x66, 0x77]
    ++ [0x88, 0x99, 0xaa, 0xbb, 0xcc, 0xdd, 0xee, 0xff]
  let key (n : Nat) : List Word := keyOfBytes ((List.range (4 * n)).map (BitVec.ofNat 8))
  bytesOfBlock (cipher (blockOfBytes plain) (expand (key 4) 4) 10 .forward) =
      [0x69, 0xc4, 0xe0, 0xd8, 0x6a, 0x7b, 0x04, 0x30]
      ++ [0xd8, 0xcd, 0xb7, 0x80, 0x70, 0xb4, 0xc5, 0x5a]
  ∧ bytesOfBlock (cipher (blockOfBytes plain) (expand (key 6) 6) 12 .forward) =
      [0xdd, 0xa9, 0x7c, 0xa4, 0x86, 0x4c, 0xdf, 0xe0]
      ++ [0x6e, 0xaf, 0x70, 0xa0, 0xec, 0x0d, 0x71, 0x91]
  ∧ bytesOfBlock (cipher (blockOfBytes plain) (expand (key 8) 8) 14 .forward) =
      [0x8e, 0xa2, 0xb7, 0xca, 0x51, 0x67, 0x45, 0xbf]
      ++ [0xea, 0xfc, 0x49, 0x90, 0x4b, 0x49, 0x60, 0x89]

/-! ### Invariants -/

/-- The reset state meets the invariants of R34. -/
def Obligations.ResetIsSound : Prop := Sound State.reset

/-- R34 (a) to (d), (g), R29, R25, R27: kept by every step. -/
def Obligations.ControlSoundIsKept : Prop :=
  ∀ s t, ControlSound s → step s = .next t → ControlSound t

/-- R34 (e), with the progress of the operations: TAG never marks a schedule that is not complete. Kept by
every step. -/
def Obligations.SoundIsKept : Prop :=
  ∀ s t, Sound s → step s = .next t → Sound t

/-! ### Reset and the clock -/

/-- R41, R43 (and R42 for W and T, whose contents are the open parameters of log entry 1); the first STATUS
read gives 0 (R222). -/
def Obligations.ResetStateValues : Prop :=
  (State.reset.rc = 0 ∧ State.reset.nk.code = 0 ∧ State.reset.op.code = 0 ∧ State.reset.ki = 0
    ∧ State.reset.ph.code = 0 ∧ State.reset.dir.code = 0 ∧ State.reset.tag.code = 0
    ∧ State.reset.busy = false ∧ State.reset.done = false ∧ State.reset.err = false
    ∧ errcodeBits State.reset.errcode = 0)
  ∧ (∀ i : Fin 8, State.reset.key[i] = 0) ∧ (∀ c : Fin 4, State.reset.blk[c] = 0)
  ∧ (∀ i : Fin 60, State.reset.w[i] = Config.wReset 0 i ∧ State.reset.t[i] = Config.tReset 0 i)
  ∧ statusWord State.reset = 0

/-- R220: a cycle with `rst` = 1, whatever the state and whatever the port carries. That the contents of W
and T are the next free choice is the model's rendering of "again arbitrary" (log entry 1); what stays of
the port and of the events to come is the model's choice (log entry 12); that `rdata` is 0 in such a cycle
with `sel` = 0 is the model's inference, which neither R220 nor R81 states (log entry 3, DEDUCED). -/
def Obligations.ResetCycleGivesTheResetState : Prop :=
  ∀ p s, p.rst = true → ∃ r,
    hostCycle p s = .next
      { State.reset with
        w := Vector.ofFn (Config.wReset (s.fresh + 1)), t := Vector.ofFn (Config.tReset (s.fresh + 1)),
        pins := p, rdata := r, pending := s.pending, fresh := s.fresh + 1 }
    ∧ (p.sel = false → r = 0)
    ∧ (p.sel = true → p.we = false → ∃ u,
        exec (.rd p.addr) s = .next u ∧ r = u.rdata)

/-- R240, on `clockEdge`, the model's reading of one edge (log entry 7): at one edge reset has priority; with BUSY = 1 the enabled micro-step takes effect, a write is
refused and a read returns the state before the edge; with BUSY = 0 the port's operation alone takes
effect. -/
def Obligations.ClockEdgePriority : Prop :=
  ∀ p s,
    (p.rst = true → clockEdge p s = hostCycle p s)
    ∧ (s.busy = false → clockEdge p s = hostCycle p s)
    ∧ (p.rst = false → s.busy = true → ∃ c t, coreStep s = .next c ∧ clockEdge p s = .next t
        ∧ t = { c with
            err := t.err, errcode := t.errcode, pins := p, rdata := t.rdata, fresh := s.fresh + 1 }
        ∧ (p.sel = true → p.we = true →
            t.err = true ∧ t.errcode = if s.err then s.errcode else some .busyViolation)
        ∧ (p.sel = true → p.we = false → t.rdata = s.readPort p.addr ∧ t.err = s.err)
        ∧ (p.sel = false → t.rdata = 0 ∧ t.err = s.err))

/-! ### Arithmetic -/

/-- R121: `double` on its corner cases, as multiplication by 0x02, linear and a bijection. -/
def Obligations.DoubleLaws : Prop :=
  (∀ a, double a = multiply a 0x02)
  ∧ (∀ a b, double (a ^^^ b) = double a ^^^ double b)
  ∧ Function.Bijective double
  ∧ (∀ a : Byte, a.getLsbD 7 = false → double a = a <<< 1)
  ∧ (∀ a : Byte, a.getLsbD 7 = true → double a = (a <<< 1) ^^^ 0x1B)
  ∧ double 0x00 = 0x00 ∧ double 0x80 = 0x1B ∧ double 0x7F = 0xFE ∧ double 0xFF = 0xE5
  ∧ double 0x8D = 0x01

/-- R123: the laws of `multiply`. -/
def Obligations.MultiplyLaws : Prop :=
  (∀ a b, multiply a b = multiply b a)
  ∧ (∀ a b c, multiply a (b ^^^ c) = multiply a b ^^^ multiply a c)
  ∧ (∀ a, multiply a 0x01 = a) ∧ (∀ a, multiply a 0x00 = 0x00) ∧ (∀ b, multiply 0x00 b = 0x00)
  ∧ (∀ a, multiply a 0x02 = double a) ∧ (∀ a, multiply a 0x03 = double a ^^^ a)
  ∧ (∀ a b c, multiply (multiply a b) c = multiply a (multiply b c))
  ∧ (∀ a, a ≠ 0 → ∃ b, multiply a b = 0x01 ∧ ∀ b', multiply a b' = 0x01 → b' = b)
  ∧ (∀ a, double^[255] a = a)
  ∧ (double^[51] 0x01 = 0x01 ∧ ∀ m : Fin 51, 0 < m.val → double^[m.val] 0x01 ≠ 0x01)
  ∧ ((multiply 0x03)^[255] 0x01 = 0x01 ∧ ∀ m : Fin 255, 0 < m.val → (multiply 0x03)^[m.val] 0x01 ≠ 0x01)
  ∧ multiply 0x53 0xCA = 0x01 ∧ multiply 0x02 0x8D = 0x01 ∧ multiply 0x03 0xF6 = 0x01
  ∧ multiply 0xFF 0xFF = 0x13 ∧ multiply 0x80 0x02 = 0x1B

/-- R126: the laws of `mix_word`. -/
def Obligations.MixWordLaws : Prop :=
  (∀ a b, mixWord a b = mixWord b a)
  ∧ (∀ a b c, mixWord a (b ^^^ c) = mixWord a b ^^^ mixWord a c)
  ∧ (∀ a b c, mixWord (a ^^^ b) c = mixWord a c ^^^ mixWord b c)
  ∧ (∀ b, mixWord 0x00000001 b = b) ∧ (∀ b, mixWord 0 b = 0)
  ∧ (∀ b, mixWord 0x00000100 b = wordOf (byteAt b 3) (byteAt b 0) (byteAt b 1) (byteAt b 2))
  ∧ (∀ a b c, mixWord (mixWord a b) c = mixWord a (mixWord b c))
  ∧ (∀ w, mixWord polyI (mixWord polyF w) = w ∧ mixWord polyF (mixWord polyI w) = w)
  ∧ (∀ s0 s1 s2 s3, mixWord polyF (wordOf s0 s1 s2 s3) =
      wordOf (double s0 ^^^ (double s1 ^^^ s1) ^^^ s2 ^^^ s3)
        (s0 ^^^ double s1 ^^^ (double s2 ^^^ s2) ^^^ s3)
        (s0 ^^^ s1 ^^^ double s2 ^^^ (double s3 ^^^ s3))
        ((double s0 ^^^ s0) ^^^ s1 ^^^ s2 ^^^ double s3))
  ∧ (∀ s0 s1 s2 s3, mixWord polyI (wordOf s0 s1 s2 s3) =
      wordOf (multiply 0x0E s0 ^^^ multiply 0x0B s1 ^^^ multiply 0x0D s2 ^^^ multiply 0x09 s3)
        (multiply 0x09 s0 ^^^ multiply 0x0E s1 ^^^ multiply 0x0B s2 ^^^ multiply 0x0D s3)
        (multiply 0x0D s0 ^^^ multiply 0x09 s1 ^^^ multiply 0x0E s2 ^^^ multiply 0x0B s3)
        (multiply 0x0B s0 ^^^ multiply 0x0D s1 ^^^ multiply 0x09 s2 ^^^ multiply 0x0E s3))
  ∧ (∀ b, mixWord polyF (wordOf b b b b) = wordOf b b b b
      ∧ mixWord polyI (wordOf b b b b) = wordOf b b b b)
  ∧ mixWord polyF 0x455313DB = 0xBCA14D8E ∧ mixWord polyF 0x5C220AF2 = 0x9D58DC9F
  ∧ mixWord polyI 0xE5816604 = 0x305DBFD4

/-- R125: the diffusion polynomials and that they are mutual inverses. -/
def Obligations.DiffusionPolynomials : Prop :=
  polyF = wordOf 0x02 0x01 0x01 0x03 ∧ polyI = wordOf 0x0E 0x09 0x0D 0x0B
  ∧ polyF = 0x03010102 ∧ polyI = 0x0B0D090E
  ∧ mixWord polyI polyF = 0x00000001 ∧ mixWord polyF polyI = 0x00000001

/-- R111 and R112: the tables are mutual inverses, SBOX has no fixed point and no complement point, and it
is the affine image of the field inverse. -/
def Obligations.SubstitutionTables : Prop :=
  (∀ x, invSbox (sbox x) = x) ∧ (∀ y, sbox (invSbox y) = y)
  ∧ (∀ x, sbox x ≠ x ∧ sbox x ≠ x ^^^ 0xFF)
  ∧ ∃ inv : Byte → Byte, inv 0 = 0 ∧ (∀ x, x ≠ 0 → multiply x (inv x) = 0x01)
    ∧ ∀ x, sbox x = inv x ^^^ (inv x).rotateLeft 1 ^^^ (inv x).rotateLeft 2 ^^^ (inv x).rotateLeft 3
        ^^^ (inv x).rotateLeft 4 ^^^ 0x63

/-- R113: RCON is the sequence of doublings of 0x01, in byte 0. -/
def Obligations.RoundConstants : Prop :=
  rconList.length = 14 ∧ ∀ j : Fin 14, rcon j.val = (double^[j.val] 0x01).setWidth 32

/-- R130 to R133 byte by byte, and R134: the inverse of each transform is the same function with the other
parameter. -/
def Obligations.TransformsAndTheirInverses : Prop :=
  (∀ (tab : Byte → Byte) (b : Block) (c r : Fin 4),
    byteAt (substitute tab b)[c] r.val = tab (byteAt b[c] r.val))
  ∧ (∀ (sh : Nat) (b : Block) (c r : Fin 4),
    byteAt (rowRotate sh b)[c] r.val
      = byteAt (b[(c.val + sh * r.val) % 4]'(Nat.mod_lt _ (by decide))) r.val)
  ∧ (∀ (p : Word) (b : Block) (c : Fin 4), (colMix p b)[c] = mixWord p b[c])
  ∧ (∀ (b k : Block) (c : Fin 4), (addKey b k)[c] = b[c] ^^^ k[c])
  ∧ (∀ b, substitute invSbox (substitute sbox b) = b ∧ substitute sbox (substitute invSbox b) = b)
  ∧ (∀ b, rowRotate 3 (rowRotate 1 b) = b ∧ rowRotate 1 (rowRotate 3 b) = b)
  ∧ (∀ b, colMix polyI (colMix polyF b) = b ∧ colMix polyF (colMix polyI b) = b)
  ∧ (∀ b k, addKey (addKey b k) k = b)
  ∧ (∀ tab sh b, rowRotate sh (substitute tab b) = substitute tab (rowRotate sh b))

/-- R10, R141: the bytes of a word, and the byte rotation as a permutation of them. -/
def Obligations.BytesOfAWord : Prop :=
  (∀ b0 b1 b2 b3, byteAt (wordOf b0 b1 b2 b3) 0 = b0 ∧ byteAt (wordOf b0 b1 b2 b3) 1 = b1
    ∧ byteAt (wordOf b0 b1 b2 b3) 2 = b2 ∧ byteAt (wordOf b0 b1 b2 b3) 3 = b3)
  ∧ (∀ v, wordOf (byteAt v 0) (byteAt v 1) (byteAt v 2) (byteAt v 3) = v)
  ∧ (∀ v, rotByte v = wordOf (byteAt v 1) (byteAt v 2) (byteAt v 3) (byteAt v 0))
  ∧ (∀ v : Word, rotByte v = (v >>> 8) ||| (v <<< 24))

/-- R56, R57: the byte sequence of a block and of a key, byte k at row `k mod 4` of column `k div 4`. -/
def Obligations.ByteSequences : Prop :=
  (∀ bs : List Byte, bs.length = 16 →
    bytesOfBlock (blockOfBytes bs) = bs
    ∧ ∀ k : Fin 16, byteAt ((blockOfBytes bs)[k.val / 4]'(by omega)) (k.val % 4) = bs.getD k.val 0)
  ∧ (∀ b : Block, blockOfBytes (bytesOfBlock b) = b)
  ∧ (∀ (bs : List Byte) (k : KeySize), bs.length = 4 * k.nk →
    (keyOfBytes bs).length = k.nk
    ∧ ∀ n, n < 4 * k.nk → byteAt ((keyOfBytes bs).getD (n / 4) 0) (n % 4) = bs.getD n 0)
end

