-- ==== Sys2Proof/Laws/Decode.lean ====
section
/-! SUPPORT. The fields of a code that was put together from them. -/

namespace Sys2Proof

@[simp] theorem portSel_portCode (sel we : Bool) (a : Addr) : portSel (portCode sel we a) = sel := by
  revert a
  cases sel <;> cases we <;> decide

@[simp] theorem portWe_portCode (sel we : Bool) (a : Addr) : portWe (portCode sel we a) = we := by
  revert a
  cases sel <;> cases we <;> decide

@[simp] theorem portAddr_portCode (sel we : Bool) (a : Addr) : portAddr (portCode sel we a) = a := by
  revert a
  cases sel <;> cases we <;> decide

end Sys2Proof
end

