-- ==== Sys2Proof/Laws/State.lean ====
section
/-! SUPPORT. What each named update of State leaves in each field: one lemma per field per update, so that
no later proof unfolds a record update. -/

namespace Sys2Proof.Machine
namespace State

variable (s : State)

/-! ### start -/

@[simp] theorem start_key (o : Op) : (s.start o).key = s.key := rfl
@[simp] theorem start_blk (o : Op) : (s.start o).blk = s.blk := rfl
@[simp] theorem start_w (o : Op) : (s.start o).w = s.w := rfl
@[simp] theorem start_t (o : Op) : (s.start o).t = s.t := rfl
@[simp] theorem start_rc (o : Op) : (s.start o).rc = s.rc := rfl
@[simp] theorem start_nk (o : Op) : (s.start o).nk = s.nk := rfl
@[simp] theorem start_op (o : Op) : (s.start o).op = o := rfl
@[simp] theorem start_ki (o : Op) : (s.start o).ki = s.ki := rfl
@[simp] theorem start_ph (o : Op) : (s.start o).ph = s.ph := rfl
@[simp] theorem start_dir (o : Op) : (s.start o).dir = s.dir := rfl
@[simp] theorem start_tag (o : Op) : (s.start o).tag = s.tag := rfl
@[simp] theorem start_busy (o : Op) : (s.start o).busy = true := rfl
@[simp] theorem start_done (o : Op) : (s.start o).done = false := rfl
@[simp] theorem start_err (o : Op) : (s.start o).err = s.err := rfl
@[simp] theorem start_errcode (o : Op) : (s.start o).errcode = s.errcode := rfl
@[simp] theorem start_pins (o : Op) : (s.start o).pins = s.pins := rfl
@[simp] theorem start_rdata (o : Op) : (s.start o).rdata = s.rdata := rfl
@[simp] theorem start_pending (o : Op) : (s.start o).pending = s.pending := rfl
@[simp] theorem start_fresh (o : Op) : (s.start o).fresh = s.fresh := rfl

/-! ### finish -/

@[simp] theorem finish_key : s.finish.key = s.key := rfl
@[simp] theorem finish_blk : s.finish.blk = s.blk := rfl
@[simp] theorem finish_w : s.finish.w = s.w := rfl
@[simp] theorem finish_t : s.finish.t = s.t := rfl
@[simp] theorem finish_rc : s.finish.rc = s.rc := rfl
@[simp] theorem finish_nk : s.finish.nk = s.nk := rfl
@[simp] theorem finish_op : s.finish.op = .idle := rfl
@[simp] theorem finish_ki : s.finish.ki = s.ki := rfl
@[simp] theorem finish_ph : s.finish.ph = s.ph := rfl
@[simp] theorem finish_dir : s.finish.dir = s.dir := rfl
@[simp] theorem finish_tag : s.finish.tag = s.tag := rfl
@[simp] theorem finish_busy : s.finish.busy = false := rfl
@[simp] theorem finish_done : s.finish.done = true := rfl
@[simp] theorem finish_err : s.finish.err = s.err := rfl
@[simp] theorem finish_errcode : s.finish.errcode = s.errcode := rfl
@[simp] theorem finish_pins : s.finish.pins = s.pins := rfl
@[simp] theorem finish_rdata : s.finish.rdata = s.rdata := rfl
@[simp] theorem finish_pending : s.finish.pending = s.pending := rfl
@[simp] theorem finish_fresh : s.finish.fresh = s.fresh := rfl

/-! ### putBlockWord -/

@[simp] theorem putBlockWord_key (c : Fin 4) (v : Word) : (s.putBlockWord c v).key = s.key := rfl
@[simp] theorem putBlockWord_blk (c : Fin 4) (v : Word) : (s.putBlockWord c v).blk = s.blk.set c.val v c.isLt := rfl
@[simp] theorem putBlockWord_w (c : Fin 4) (v : Word) : (s.putBlockWord c v).w = s.w := rfl
@[simp] theorem putBlockWord_t (c : Fin 4) (v : Word) : (s.putBlockWord c v).t = s.t := rfl
@[simp] theorem putBlockWord_rc (c : Fin 4) (v : Word) : (s.putBlockWord c v).rc = s.rc := rfl
@[simp] theorem putBlockWord_nk (c : Fin 4) (v : Word) : (s.putBlockWord c v).nk = s.nk := rfl
@[simp] theorem putBlockWord_op (c : Fin 4) (v : Word) : (s.putBlockWord c v).op = s.op := rfl
@[simp] theorem putBlockWord_ki (c : Fin 4) (v : Word) : (s.putBlockWord c v).ki = s.ki := rfl
@[simp] theorem putBlockWord_ph (c : Fin 4) (v : Word) : (s.putBlockWord c v).ph = s.ph := rfl
@[simp] theorem putBlockWord_dir (c : Fin 4) (v : Word) : (s.putBlockWord c v).dir = s.dir := rfl
@[simp] theorem putBlockWord_tag (c : Fin 4) (v : Word) : (s.putBlockWord c v).tag = s.tag := rfl
@[simp] theorem putBlockWord_busy (c : Fin 4) (v : Word) : (s.putBlockWord c v).busy = s.busy := rfl
@[simp] theorem putBlockWord_done (c : Fin 4) (v : Word) : (s.putBlockWord c v).done = s.done := rfl
@[simp] theorem putBlockWord_err (c : Fin 4) (v : Word) : (s.putBlockWord c v).err = s.err := rfl
@[simp] theorem putBlockWord_errcode (c : Fin 4) (v : Word) : (s.putBlockWord c v).errcode = s.errcode := rfl
@[simp] theorem putBlockWord_pins (c : Fin 4) (v : Word) : (s.putBlockWord c v).pins = s.pins := rfl
@[simp] theorem putBlockWord_rdata (c : Fin 4) (v : Word) : (s.putBlockWord c v).rdata = s.rdata := rfl
@[simp] theorem putBlockWord_pending (c : Fin 4) (v : Word) : (s.putBlockWord c v).pending = s.pending := rfl
@[simp] theorem putBlockWord_fresh (c : Fin 4) (v : Word) : (s.putBlockWord c v).fresh = s.fresh := rfl

/-! ### putKeyWord -/

@[simp] theorem putKeyWord_key (i : Fin 8) (v : Word) : (s.putKeyWord i v).key = s.key.set i.val v i.isLt := rfl
@[simp] theorem putKeyWord_blk (i : Fin 8) (v : Word) : (s.putKeyWord i v).blk = s.blk := rfl
@[simp] theorem putKeyWord_w (i : Fin 8) (v : Word) : (s.putKeyWord i v).w = s.w := rfl
@[simp] theorem putKeyWord_t (i : Fin 8) (v : Word) : (s.putKeyWord i v).t = s.t := rfl
@[simp] theorem putKeyWord_rc (i : Fin 8) (v : Word) : (s.putKeyWord i v).rc = s.rc := rfl
@[simp] theorem putKeyWord_nk (i : Fin 8) (v : Word) : (s.putKeyWord i v).nk = s.nk := rfl
@[simp] theorem putKeyWord_op (i : Fin 8) (v : Word) : (s.putKeyWord i v).op = s.op := rfl
@[simp] theorem putKeyWord_ki (i : Fin 8) (v : Word) : (s.putKeyWord i v).ki = s.ki := rfl
@[simp] theorem putKeyWord_ph (i : Fin 8) (v : Word) : (s.putKeyWord i v).ph = s.ph := rfl
@[simp] theorem putKeyWord_dir (i : Fin 8) (v : Word) : (s.putKeyWord i v).dir = s.dir := rfl
@[simp] theorem putKeyWord_tag (i : Fin 8) (v : Word) : (s.putKeyWord i v).tag = s.tag := rfl
@[simp] theorem putKeyWord_busy (i : Fin 8) (v : Word) : (s.putKeyWord i v).busy = s.busy := rfl
@[simp] theorem putKeyWord_done (i : Fin 8) (v : Word) : (s.putKeyWord i v).done = s.done := rfl
@[simp] theorem putKeyWord_err (i : Fin 8) (v : Word) : (s.putKeyWord i v).err = s.err := rfl
@[simp] theorem putKeyWord_errcode (i : Fin 8) (v : Word) : (s.putKeyWord i v).errcode = s.errcode := rfl
@[simp] theorem putKeyWord_pins (i : Fin 8) (v : Word) : (s.putKeyWord i v).pins = s.pins := rfl
@[simp] theorem putKeyWord_rdata (i : Fin 8) (v : Word) : (s.putKeyWord i v).rdata = s.rdata := rfl
@[simp] theorem putKeyWord_pending (i : Fin 8) (v : Word) : (s.putKeyWord i v).pending = s.pending := rfl
@[simp] theorem putKeyWord_fresh (i : Fin 8) (v : Word) : (s.putKeyWord i v).fresh = s.fresh := rfl

/-! ### putSchedWord -/

@[simp] theorem putSchedWord_key (i : Fin 60) (v : Word) : (s.putSchedWord i v).key = s.key := rfl
@[simp] theorem putSchedWord_blk (i : Fin 60) (v : Word) : (s.putSchedWord i v).blk = s.blk := rfl
@[simp] theorem putSchedWord_w (i : Fin 60) (v : Word) : (s.putSchedWord i v).w = s.w.set i.val v i.isLt := rfl
@[simp] theorem putSchedWord_t (i : Fin 60) (v : Word) : (s.putSchedWord i v).t = s.t := rfl
@[simp] theorem putSchedWord_rc (i : Fin 60) (v : Word) : (s.putSchedWord i v).rc = s.rc := rfl
@[simp] theorem putSchedWord_nk (i : Fin 60) (v : Word) : (s.putSchedWord i v).nk = s.nk := rfl
@[simp] theorem putSchedWord_op (i : Fin 60) (v : Word) : (s.putSchedWord i v).op = s.op := rfl
@[simp] theorem putSchedWord_ki (i : Fin 60) (v : Word) : (s.putSchedWord i v).ki = s.ki := rfl
@[simp] theorem putSchedWord_ph (i : Fin 60) (v : Word) : (s.putSchedWord i v).ph = s.ph := rfl
@[simp] theorem putSchedWord_dir (i : Fin 60) (v : Word) : (s.putSchedWord i v).dir = s.dir := rfl
@[simp] theorem putSchedWord_tag (i : Fin 60) (v : Word) : (s.putSchedWord i v).tag = s.tag := rfl
@[simp] theorem putSchedWord_busy (i : Fin 60) (v : Word) : (s.putSchedWord i v).busy = s.busy := rfl
@[simp] theorem putSchedWord_done (i : Fin 60) (v : Word) : (s.putSchedWord i v).done = s.done := rfl
@[simp] theorem putSchedWord_err (i : Fin 60) (v : Word) : (s.putSchedWord i v).err = s.err := rfl
@[simp] theorem putSchedWord_errcode (i : Fin 60) (v : Word) : (s.putSchedWord i v).errcode = s.errcode := rfl
@[simp] theorem putSchedWord_pins (i : Fin 60) (v : Word) : (s.putSchedWord i v).pins = s.pins := rfl
@[simp] theorem putSchedWord_rdata (i : Fin 60) (v : Word) : (s.putSchedWord i v).rdata = s.rdata := rfl
@[simp] theorem putSchedWord_pending (i : Fin 60) (v : Word) : (s.putSchedWord i v).pending = s.pending := rfl
@[simp] theorem putSchedWord_fresh (i : Fin 60) (v : Word) : (s.putSchedWord i v).fresh = s.fresh := rfl

/-! ### putScratchWord -/

@[simp] theorem putScratchWord_key (i : Fin 60) (v : Word) : (s.putScratchWord i v).key = s.key := rfl
@[simp] theorem putScratchWord_blk (i : Fin 60) (v : Word) : (s.putScratchWord i v).blk = s.blk := rfl
@[simp] theorem putScratchWord_w (i : Fin 60) (v : Word) : (s.putScratchWord i v).w = s.w := rfl
@[simp] theorem putScratchWord_t (i : Fin 60) (v : Word) : (s.putScratchWord i v).t = s.t.set i.val v i.isLt := rfl
@[simp] theorem putScratchWord_rc (i : Fin 60) (v : Word) : (s.putScratchWord i v).rc = s.rc := rfl
@[simp] theorem putScratchWord_nk (i : Fin 60) (v : Word) : (s.putScratchWord i v).nk = s.nk := rfl
@[simp] theorem putScratchWord_op (i : Fin 60) (v : Word) : (s.putScratchWord i v).op = s.op := rfl
@[simp] theorem putScratchWord_ki (i : Fin 60) (v : Word) : (s.putScratchWord i v).ki = s.ki := rfl
@[simp] theorem putScratchWord_ph (i : Fin 60) (v : Word) : (s.putScratchWord i v).ph = s.ph := rfl
@[simp] theorem putScratchWord_dir (i : Fin 60) (v : Word) : (s.putScratchWord i v).dir = s.dir := rfl
@[simp] theorem putScratchWord_tag (i : Fin 60) (v : Word) : (s.putScratchWord i v).tag = s.tag := rfl
@[simp] theorem putScratchWord_busy (i : Fin 60) (v : Word) : (s.putScratchWord i v).busy = s.busy := rfl
@[simp] theorem putScratchWord_done (i : Fin 60) (v : Word) : (s.putScratchWord i v).done = s.done := rfl
@[simp] theorem putScratchWord_err (i : Fin 60) (v : Word) : (s.putScratchWord i v).err = s.err := rfl
@[simp] theorem putScratchWord_errcode (i : Fin 60) (v : Word) : (s.putScratchWord i v).errcode = s.errcode := rfl
@[simp] theorem putScratchWord_pins (i : Fin 60) (v : Word) : (s.putScratchWord i v).pins = s.pins := rfl
@[simp] theorem putScratchWord_rdata (i : Fin 60) (v : Word) : (s.putScratchWord i v).rdata = s.rdata := rfl
@[simp] theorem putScratchWord_pending (i : Fin 60) (v : Word) : (s.putScratchWord i v).pending = s.pending := rfl
@[simp] theorem putScratchWord_fresh (i : Fin 60) (v : Word) : (s.putScratchWord i v).fresh = s.fresh := rfl

/-! ### raise -/

@[simp] theorem raise_key (c : Cause) : (s.raise c).key = s.key := rfl
@[simp] theorem raise_blk (c : Cause) : (s.raise c).blk = s.blk := rfl
@[simp] theorem raise_w (c : Cause) : (s.raise c).w = s.w := rfl
@[simp] theorem raise_t (c : Cause) : (s.raise c).t = s.t := rfl
@[simp] theorem raise_rc (c : Cause) : (s.raise c).rc = s.rc := rfl
@[simp] theorem raise_nk (c : Cause) : (s.raise c).nk = s.nk := rfl
@[simp] theorem raise_op (c : Cause) : (s.raise c).op = s.op := rfl
@[simp] theorem raise_ki (c : Cause) : (s.raise c).ki = s.ki := rfl
@[simp] theorem raise_ph (c : Cause) : (s.raise c).ph = s.ph := rfl
@[simp] theorem raise_dir (c : Cause) : (s.raise c).dir = s.dir := rfl
@[simp] theorem raise_tag (c : Cause) : (s.raise c).tag = s.tag := rfl
@[simp] theorem raise_busy (c : Cause) : (s.raise c).busy = s.busy := rfl
@[simp] theorem raise_done (c : Cause) : (s.raise c).done = s.done := rfl
@[simp] theorem raise_err (c : Cause) : (s.raise c).err = true := rfl
@[simp] theorem raise_errcode (c : Cause) : (s.raise c).errcode = if s.err then s.errcode else some c := rfl
@[simp] theorem raise_pins (c : Cause) : (s.raise c).pins = s.pins := rfl
@[simp] theorem raise_rdata (c : Cause) : (s.raise c).rdata = s.rdata := rfl
@[simp] theorem raise_pending (c : Cause) : (s.raise c).pending = s.pending := rfl
@[simp] theorem raise_fresh (c : Cause) : (s.raise c).fresh = s.fresh := rfl

/-! ### beginCycle -/

@[simp] theorem beginCycle_key (p : Pins) : (s.beginCycle p).key = s.key := rfl
@[simp] theorem beginCycle_blk (p : Pins) : (s.beginCycle p).blk = s.blk := rfl
@[simp] theorem beginCycle_w (p : Pins) : (s.beginCycle p).w = s.w := rfl
@[simp] theorem beginCycle_t (p : Pins) : (s.beginCycle p).t = s.t := rfl
@[simp] theorem beginCycle_rc (p : Pins) : (s.beginCycle p).rc = s.rc := rfl
@[simp] theorem beginCycle_nk (p : Pins) : (s.beginCycle p).nk = s.nk := rfl
@[simp] theorem beginCycle_op (p : Pins) : (s.beginCycle p).op = s.op := rfl
@[simp] theorem beginCycle_ki (p : Pins) : (s.beginCycle p).ki = s.ki := rfl
@[simp] theorem beginCycle_ph (p : Pins) : (s.beginCycle p).ph = s.ph := rfl
@[simp] theorem beginCycle_dir (p : Pins) : (s.beginCycle p).dir = s.dir := rfl
@[simp] theorem beginCycle_tag (p : Pins) : (s.beginCycle p).tag = s.tag := rfl
@[simp] theorem beginCycle_busy (p : Pins) : (s.beginCycle p).busy = s.busy := rfl
@[simp] theorem beginCycle_done (p : Pins) : (s.beginCycle p).done = s.done := rfl
@[simp] theorem beginCycle_err (p : Pins) : (s.beginCycle p).err = s.err := rfl
@[simp] theorem beginCycle_errcode (p : Pins) : (s.beginCycle p).errcode = s.errcode := rfl
@[simp] theorem beginCycle_pins (p : Pins) : (s.beginCycle p).pins = p := rfl
@[simp] theorem beginCycle_rdata (p : Pins) : (s.beginCycle p).rdata = Config.undrivenRdata s.fresh := rfl
@[simp] theorem beginCycle_pending (p : Pins) : (s.beginCycle p).pending = s.pending := rfl
@[simp] theorem beginCycle_fresh (p : Pins) : (s.beginCycle p).fresh = s.fresh + 1 := rfl

/-! ### driveRdata -/

@[simp] theorem driveRdata_key (v : Word) : (s.driveRdata v).key = s.key := rfl
@[simp] theorem driveRdata_blk (v : Word) : (s.driveRdata v).blk = s.blk := rfl
@[simp] theorem driveRdata_w (v : Word) : (s.driveRdata v).w = s.w := rfl
@[simp] theorem driveRdata_t (v : Word) : (s.driveRdata v).t = s.t := rfl
@[simp] theorem driveRdata_rc (v : Word) : (s.driveRdata v).rc = s.rc := rfl
@[simp] theorem driveRdata_nk (v : Word) : (s.driveRdata v).nk = s.nk := rfl
@[simp] theorem driveRdata_op (v : Word) : (s.driveRdata v).op = s.op := rfl
@[simp] theorem driveRdata_ki (v : Word) : (s.driveRdata v).ki = s.ki := rfl
@[simp] theorem driveRdata_ph (v : Word) : (s.driveRdata v).ph = s.ph := rfl
@[simp] theorem driveRdata_dir (v : Word) : (s.driveRdata v).dir = s.dir := rfl
@[simp] theorem driveRdata_tag (v : Word) : (s.driveRdata v).tag = s.tag := rfl
@[simp] theorem driveRdata_busy (v : Word) : (s.driveRdata v).busy = s.busy := rfl
@[simp] theorem driveRdata_done (v : Word) : (s.driveRdata v).done = s.done := rfl
@[simp] theorem driveRdata_err (v : Word) : (s.driveRdata v).err = s.err := rfl
@[simp] theorem driveRdata_errcode (v : Word) : (s.driveRdata v).errcode = s.errcode := rfl
@[simp] theorem driveRdata_pins (v : Word) : (s.driveRdata v).pins = s.pins := rfl
@[simp] theorem driveRdata_rdata (v : Word) : (s.driveRdata v).rdata = v := rfl
@[simp] theorem driveRdata_pending (v : Word) : (s.driveRdata v).pending = s.pending := rfl
@[simp] theorem driveRdata_fresh (v : Word) : (s.driveRdata v).fresh = s.fresh := rfl

/-! ### acceptExpand -/

@[simp] theorem acceptExpand_key (k : KeySize) : (s.acceptExpand k).key = s.key := rfl
@[simp] theorem acceptExpand_blk (k : KeySize) : (s.acceptExpand k).blk = s.blk := rfl
@[simp] theorem acceptExpand_w (k : KeySize) : (s.acceptExpand k).w = s.w := rfl
@[simp] theorem acceptExpand_t (k : KeySize) : (s.acceptExpand k).t = s.t := rfl
@[simp] theorem acceptExpand_rc (k : KeySize) : (s.acceptExpand k).rc = s.rc := rfl
@[simp] theorem acceptExpand_nk (k : KeySize) : (s.acceptExpand k).nk = k := rfl
@[simp] theorem acceptExpand_op (k : KeySize) : (s.acceptExpand k).op = .expand := rfl
@[simp] theorem acceptExpand_ki (k : KeySize) : (s.acceptExpand k).ki = 0 := rfl
@[simp] theorem acceptExpand_ph (k : KeySize) : (s.acceptExpand k).ph = s.ph := rfl
@[simp] theorem acceptExpand_dir (k : KeySize) : (s.acceptExpand k).dir = s.dir := rfl
@[simp] theorem acceptExpand_tag (k : KeySize) : (s.acceptExpand k).tag = .none := rfl
@[simp] theorem acceptExpand_busy (k : KeySize) : (s.acceptExpand k).busy = true := rfl
@[simp] theorem acceptExpand_done (k : KeySize) : (s.acceptExpand k).done = false := rfl
@[simp] theorem acceptExpand_err (k : KeySize) : (s.acceptExpand k).err = s.err := rfl
@[simp] theorem acceptExpand_errcode (k : KeySize) : (s.acceptExpand k).errcode = s.errcode := rfl
@[simp] theorem acceptExpand_pins (k : KeySize) : (s.acceptExpand k).pins = s.pins := rfl
@[simp] theorem acceptExpand_rdata (k : KeySize) : (s.acceptExpand k).rdata = s.rdata := rfl
@[simp] theorem acceptExpand_pending (k : KeySize) : (s.acceptExpand k).pending = s.pending := rfl
@[simp] theorem acceptExpand_fresh (k : KeySize) : (s.acceptExpand k).fresh = s.fresh := rfl

/-! ### acceptCipher -/

@[simp] theorem acceptCipher_key (d : Dir) : (s.acceptCipher d).key = s.key := rfl
@[simp] theorem acceptCipher_blk (d : Dir) : (s.acceptCipher d).blk = s.blk := rfl
@[simp] theorem acceptCipher_w (d : Dir) : (s.acceptCipher d).w = s.w := rfl
@[simp] theorem acceptCipher_t (d : Dir) : (s.acceptCipher d).t = s.t := rfl
@[simp] theorem acceptCipher_rc (d : Dir) : (s.acceptCipher d).rc = s.rc := rfl
@[simp] theorem acceptCipher_nk (d : Dir) : (s.acceptCipher d).nk = s.nk := rfl
@[simp] theorem acceptCipher_op (d : Dir) : (s.acceptCipher d).op = .cipher := rfl
@[simp] theorem acceptCipher_ki (d : Dir) : (s.acceptCipher d).ki = s.ki := rfl
@[simp] theorem acceptCipher_ph (d : Dir) : (s.acceptCipher d).ph = s.ph := rfl
@[simp] theorem acceptCipher_dir (d : Dir) : (s.acceptCipher d).dir = d := rfl
@[simp] theorem acceptCipher_tag (d : Dir) : (s.acceptCipher d).tag = s.tag := rfl
@[simp] theorem acceptCipher_busy (d : Dir) : (s.acceptCipher d).busy = true := rfl
@[simp] theorem acceptCipher_done (d : Dir) : (s.acceptCipher d).done = false := rfl
@[simp] theorem acceptCipher_err (d : Dir) : (s.acceptCipher d).err = s.err := rfl
@[simp] theorem acceptCipher_errcode (d : Dir) : (s.acceptCipher d).errcode = s.errcode := rfl
@[simp] theorem acceptCipher_pins (d : Dir) : (s.acceptCipher d).pins = s.pins := rfl
@[simp] theorem acceptCipher_rdata (d : Dir) : (s.acceptCipher d).rdata = s.rdata := rfl
@[simp] theorem acceptCipher_pending (d : Dir) : (s.acceptCipher d).pending = s.pending := rfl
@[simp] theorem acceptCipher_fresh (d : Dir) : (s.acceptCipher d).fresh = s.fresh := rfl

/-! ### acceptInvsched -/

@[simp] theorem acceptInvsched_key : s.acceptInvsched.key = s.key := rfl
@[simp] theorem acceptInvsched_blk : s.acceptInvsched.blk = s.blk := rfl
@[simp] theorem acceptInvsched_w : s.acceptInvsched.w = s.w := rfl
@[simp] theorem acceptInvsched_t : s.acceptInvsched.t = s.t := rfl
@[simp] theorem acceptInvsched_rc : s.acceptInvsched.rc = s.rc := rfl
@[simp] theorem acceptInvsched_nk : s.acceptInvsched.nk = s.nk := rfl
@[simp] theorem acceptInvsched_op : s.acceptInvsched.op = .invsched := rfl
@[simp] theorem acceptInvsched_ki : s.acceptInvsched.ki = 0 := rfl
@[simp] theorem acceptInvsched_ph : s.acceptInvsched.ph = .compute := rfl
@[simp] theorem acceptInvsched_dir : s.acceptInvsched.dir = s.dir := rfl
@[simp] theorem acceptInvsched_tag : s.acceptInvsched.tag = .none := rfl
@[simp] theorem acceptInvsched_busy : s.acceptInvsched.busy = true := rfl
@[simp] theorem acceptInvsched_done : s.acceptInvsched.done = false := rfl
@[simp] theorem acceptInvsched_err : s.acceptInvsched.err = s.err := rfl
@[simp] theorem acceptInvsched_errcode : s.acceptInvsched.errcode = s.errcode := rfl
@[simp] theorem acceptInvsched_pins : s.acceptInvsched.pins = s.pins := rfl
@[simp] theorem acceptInvsched_rdata : s.acceptInvsched.rdata = s.rdata := rfl
@[simp] theorem acceptInvsched_pending : s.acceptInvsched.pending = s.pending := rfl
@[simp] theorem acceptInvsched_fresh : s.acceptInvsched.fresh = s.fresh := rfl

/-! ### resetWith and applyReset -/

@[simp] theorem resetWith_key (n : Nat) : (resetWith n).key = Vector.replicate 8 0 := rfl
@[simp] theorem resetWith_blk (n : Nat) : (resetWith n).blk = Vector.replicate 4 0 := rfl
@[simp] theorem resetWith_w (n : Nat) : (resetWith n).w = Vector.ofFn (Config.wReset n) := rfl
@[simp] theorem resetWith_t (n : Nat) : (resetWith n).t = Vector.ofFn (Config.tReset n) := rfl
@[simp] theorem resetWith_rc (n : Nat) : (resetWith n).rc = 0 := rfl
@[simp] theorem resetWith_nk (n : Nat) : (resetWith n).nk = .k128 := rfl
@[simp] theorem resetWith_op (n : Nat) : (resetWith n).op = .idle := rfl
@[simp] theorem resetWith_ki (n : Nat) : (resetWith n).ki = 0 := rfl
@[simp] theorem resetWith_ph (n : Nat) : (resetWith n).ph = .compute := rfl
@[simp] theorem resetWith_dir (n : Nat) : (resetWith n).dir = .forward := rfl
@[simp] theorem resetWith_tag (n : Nat) : (resetWith n).tag = .none := rfl
@[simp] theorem resetWith_busy (n : Nat) : (resetWith n).busy = false := rfl
@[simp] theorem resetWith_done (n : Nat) : (resetWith n).done = false := rfl
@[simp] theorem resetWith_err (n : Nat) : (resetWith n).err = false := rfl
@[simp] theorem resetWith_errcode (n : Nat) : (resetWith n).errcode = none := rfl
@[simp] theorem resetWith_pins (n : Nat) : (resetWith n).pins = .quiet := rfl
@[simp] theorem resetWith_rdata (n : Nat) : (resetWith n).rdata = 0 := rfl
@[simp] theorem resetWith_pending (n : Nat) : (resetWith n).pending = [] := rfl
@[simp] theorem resetWith_fresh (n : Nat) : (resetWith n).fresh = n := rfl
@[simp] theorem applyReset_key : s.applyReset.key = Vector.replicate 8 0 := rfl
@[simp] theorem applyReset_blk : s.applyReset.blk = Vector.replicate 4 0 := rfl
@[simp] theorem applyReset_w : s.applyReset.w = Vector.ofFn (Config.wReset s.fresh) := rfl
@[simp] theorem applyReset_t : s.applyReset.t = Vector.ofFn (Config.tReset s.fresh) := rfl
@[simp] theorem applyReset_rc : s.applyReset.rc = 0 := rfl
@[simp] theorem applyReset_nk : s.applyReset.nk = .k128 := rfl
@[simp] theorem applyReset_op : s.applyReset.op = .idle := rfl
@[simp] theorem applyReset_ki : s.applyReset.ki = 0 := rfl
@[simp] theorem applyReset_ph : s.applyReset.ph = .compute := rfl
@[simp] theorem applyReset_dir : s.applyReset.dir = .forward := rfl
@[simp] theorem applyReset_tag : s.applyReset.tag = .none := rfl
@[simp] theorem applyReset_busy : s.applyReset.busy = false := rfl
@[simp] theorem applyReset_done : s.applyReset.done = false := rfl
@[simp] theorem applyReset_err : s.applyReset.err = false := rfl
@[simp] theorem applyReset_errcode : s.applyReset.errcode = none := rfl
@[simp] theorem applyReset_pins : s.applyReset.pins = s.pins := rfl
@[simp] theorem applyReset_rdata : s.applyReset.rdata = s.resetRdata := rfl
@[simp] theorem applyReset_pending : s.applyReset.pending = s.pending := rfl
@[simp] theorem applyReset_fresh : s.applyReset.fresh = s.fresh := rfl

end State
end Sys2Proof.Machine
end

