-- ==== Sys2Proof/Laws/Ops.lean ====
section
/-! SUPPORT. What each shared operation can do, once: the register map, the checks of a write, and that
every meaning and every turn of an agent answers a next state. -/

namespace Sys2Proof.Machine

/-! ### The register map -/

theorem target_ctrl {a : Addr} (h : a.toNat = 0x00) : target a = .ctrl := by
  simp [target, h]

theorem target_status {a : Addr} (h : a.toNat = 0x01) : target a = .status := by
  simp [target, h]

theorem target_block {a : Addr} (c : Fin 4) (h : a.toNat = 0x04 + c.val) : target a = .block c := by
  have hc := c.isLt
  unfold target
  simp only [h]
  rw [if_neg (by omega), if_neg (by omega), dif_pos (by omega)]
  simp

theorem target_key {a : Addr} (i : Fin 8) (h : a.toNat = 0x08 + i.val) : target a = .key i := by
  have hi := i.isLt
  unfold target
  simp only [h]
  rw [if_neg (by omega), if_neg (by omega), dif_neg (by omega), dif_pos (by omega)]
  simp

theorem target_sched {a : Addr} (i : Fin 60) (h : a.toNat = 0x40 + i.val) : target a = .sched i := by
  have hi := i.isLt
  unfold target
  simp only [h]
  rw [if_neg (by omega), if_neg (by omega), dif_neg (by omega), dif_neg (by omega),
    dif_pos (by omega)]
  simp

theorem target_reserved {a : Addr}
    (h : a.toNat = 0x02 ∨ a.toNat = 0x03 ∨ (0x10 ≤ a.toNat ∧ a.toNat ≤ 0x3F) ∨ 0x7C ≤ a.toNat) :
    target a = .reserved := by
  unfold target
  simp only
  rw [if_neg (by omega), if_neg (by omega), dif_neg (by omega), dif_neg (by omega),
    dif_neg (by omega)]

/-- The register map read backwards: what an address is, from what it names. -/
theorem toNat_of_target (a : Addr) :
    match target a with
    | .ctrl => a.toNat = 0x00
    | .status => a.toNat = 0x01
    | .block c => a.toNat = 0x04 + c.val
    | .key i => a.toNat = 0x08 + i.val
    | .sched i => a.toNat = 0x40 + i.val
    | .reserved => a.toNat = 0x02 ∨ a.toNat = 0x03 ∨ (0x10 ≤ a.toNat ∧ a.toNat ≤ 0x3F)
        ∨ 0x7C ≤ a.toNat := by
  have ha := a.isLt
  unfold target
  simp only
  split_ifs <;> simp <;> omega

/-! ### The checks of a write -/

theorem unlessBusy_of_busy {s : State} (h : s.busy = true) (f : State → Result) :
    unlessBusy s f = .next (s.raise .busyViolation) := by
  simp [unlessBusy, refuse, h]

theorem unlessBusy_of_idle {s : State} (h : s.busy = false) (f : State → Result) :
    unlessBusy s f = f s := by
  simp [unlessBusy, h]

theorem requireTag_of_eq {s : State} {k : Tag} (h : s.tag = k) (f : State → State) :
    requireTag k f s = .next (f s) := by
  simp [requireTag, h]

theorem requireTag_of_ne {s : State} {k : Tag} (h : s.tag ≠ k) (f : State → State) :
    requireTag k f s = .next (s.raise .schedMismatch) := by
  simp [requireTag, refuse, h]

theorem ofCode_code (k : KeySize) : KeySize.ofCode k.code = some k := by
  cases k <;> rfl

/-! ### Every meaning goes on -/

theorem refuse_next (c : Cause) (s : State) : ∃ t, refuse c s = .next t := ⟨_, rfl⟩

theorem unlessBusy_next (s : State) {f : State → Result} (h : ∃ t, f s = .next t) :
    ∃ t, unlessBusy s f = .next t := by
  unfold unlessBusy
  split
  · exact refuse_next _ _
  · exact h

theorem requireTag_next (k : Tag) (f : State → State) (s : State) :
    ∃ t, requireTag k f s = .next t := by
  unfold requireTag
  split
  · exact ⟨_, rfl⟩
  · exact refuse_next _ _

theorem execExpand_next (ks : BitVec 2) (s : State) : ∃ t, execExpand ks s = .next t := by
  refine unlessBusy_next s ?_
  cases KeySize.ofCode ks with
  | none => exact refuse_next _ _
  | some k => exact ⟨_, rfl⟩

theorem execCommand_next (c : Command) (s : State) : ∃ t, execCommand c s = .next t := by
  cases c with
  | nop => exact unlessBusy_next s ⟨_, rfl⟩
  | expand ks => exact execExpand_next ks s
  | encrypt => exact unlessBusy_next s (requireTag_next _ _ s)
  | decrypt => exact unlessBusy_next s (requireTag_next _ _ s)
  | invsched => exact unlessBusy_next s (requireTag_next _ _ s)

theorem dispatch_next (v : Word) (s : State) : ∃ t, dispatch v s = .next t := by
  unfold dispatch
  split
  · exact refuse_next _ _
  · exact execCommand_next _ _

/-! ### What a write can do -/

/-- Every way a command can end. -/
theorem execCommand_cases {c : Command} {s t : State} (h : execCommand c s = .next t) :
    (∃ x, t = s.raise x)
    ∨ (s.busy = false ∧
      ((c = .nop ∧ t = s)
      ∨ (∃ k : KeySize, c = .expand k.code ∧ t = s.acceptExpand k)
      ∨ (c = .encrypt ∧ s.tag = .fwd ∧ t = s.acceptCipher .forward)
      ∨ (c = .decrypt ∧ s.tag = .inv ∧ t = s.acceptCipher .inverse)
      ∨ (c = .invsched ∧ s.tag = .fwd ∧ t = s.acceptInvsched))) := by
  by_cases hb : s.busy = true
  · left
    refine ⟨.busyViolation, ?_⟩
    cases c <;>
      simpa [execCommand, execNop, execExpand, execEncrypt, execDecrypt, execInvsched,
        unlessBusy_of_busy hb] using h.symm
  · have hb' : s.busy = false := by simpa using hb
    cases c with
    | nop =>
      right
      simp only [execCommand, execNop, unlessBusy_of_idle hb', Host.Outcome.next.injEq] at h
      exact ⟨hb', .inl ⟨rfl, h.symm⟩⟩
    | expand ks =>
      simp only [execCommand, execExpand, unlessBusy_of_idle hb'] at h
      have hks : ks = 0 ∨ ks = 1 ∨ ks = 2 ∨ ks = 3 := by
        clear h
        revert ks
        decide
      rcases hks with rfl | rfl | rfl | rfl
      · right
        refine ⟨hb', .inr (.inl ⟨.k128, rfl, ?_⟩)⟩
        simpa [KeySize.ofCode] using h.symm
      · right
        refine ⟨hb', .inr (.inl ⟨.k192, rfl, ?_⟩)⟩
        simpa [KeySize.ofCode] using h.symm
      · right
        refine ⟨hb', .inr (.inl ⟨.k256, rfl, ?_⟩)⟩
        simpa [KeySize.ofCode] using h.symm
      · left
        refine ⟨.illegalKeysize, ?_⟩
        simpa [KeySize.ofCode, refuse] using h.symm
    | encrypt =>
      simp only [execCommand, execEncrypt, unlessBusy_of_idle hb'] at h
      by_cases ht : s.tag = .fwd
      · rw [requireTag_of_eq (by simpa [Dir.kind] using ht), Host.Outcome.next.injEq] at h
        exact .inr ⟨hb', .inr (.inr (.inl ⟨rfl, ht, h.symm⟩))⟩
      · rw [requireTag_of_ne (by simpa [Dir.kind] using ht), Host.Outcome.next.injEq] at h
        exact .inl ⟨_, h.symm⟩
    | decrypt =>
      simp only [execCommand, execDecrypt, unlessBusy_of_idle hb'] at h
      by_cases ht : s.tag = .inv
      · rw [requireTag_of_eq (by simpa [Dir.kind] using ht), Host.Outcome.next.injEq] at h
        exact .inr ⟨hb', .inr (.inr (.inr (.inl ⟨rfl, ht, h.symm⟩)))⟩
      · rw [requireTag_of_ne (by simpa [Dir.kind] using ht), Host.Outcome.next.injEq] at h
        exact .inl ⟨_, h.symm⟩
    | invsched =>
      simp only [execCommand, execInvsched, unlessBusy_of_idle hb'] at h
      by_cases ht : s.tag = .fwd
      · rw [requireTag_of_eq ht, Host.Outcome.next.injEq] at h
        exact .inr ⟨hb', .inr (.inr (.inr (.inr ⟨rfl, ht, h.symm⟩)))⟩
      · rw [requireTag_of_ne ht, Host.Outcome.next.injEq] at h
        exact .inl ⟨_, h.symm⟩

/-- Every way a write can end: refused, a word of S or KEY stored, or a command accepted. -/
theorem execWr_cases {a : Addr} {v : Word} {s t : State} (h : execWr a v s = .next t) :
    (∃ x, t = s.raise x)
    ∨ (s.busy = false ∧
      ((∃ c : Fin 4, a.toNat = 0x04 + c.val ∧ t = s.putBlockWord c v)
      ∨ (∃ i : Fin 8, a.toNat = 0x08 + i.val ∧ t = s.putKeyWord i v)
      ∨ (a.toNat = 0x00 ∧
        (t = s ∨ (∃ k : KeySize, t = s.acceptExpand k)
          ∨ (s.tag = .fwd ∧ t = s.acceptCipher .forward)
          ∨ (s.tag = .inv ∧ t = s.acceptCipher .inverse)
          ∨ (s.tag = .fwd ∧ t = s.acceptInvsched))))) := by
  by_cases hb : s.busy = true
  · rw [execWr, unlessBusy_of_busy hb, Host.Outcome.next.injEq] at h
    exact .inl ⟨_, h.symm⟩
  · have hb' : s.busy = false := by simpa using hb
    rw [execWr, unlessBusy_of_idle hb'] at h
    have hm := toNat_of_target a
    cases ht : target a with
    | ctrl =>
      rw [ht] at h hm
      change dispatch v s = .next t at h
      unfold dispatch at h
      split at h
      · rw [refuse, Host.Outcome.next.injEq] at h
        exact .inl ⟨_, h.symm⟩
      · rcases execCommand_cases h with hx | ⟨-, hc⟩
        · exact .inl hx
        · refine .inr ⟨hb', .inr (.inr ⟨hm, ?_⟩)⟩
          rcases hc with ⟨-, e⟩ | ⟨k, -, e⟩ | ⟨-, q, e⟩ | ⟨-, q, e⟩ | ⟨-, q, e⟩
          · exact .inl e
          · exact .inr (.inl ⟨k, e⟩)
          · exact .inr (.inr (.inl ⟨q, e⟩))
          · exact .inr (.inr (.inr (.inl ⟨q, e⟩)))
          · exact .inr (.inr (.inr (.inr ⟨q, e⟩)))
    | status =>
      rw [ht] at h
      exact .inl ⟨_, (Host.Outcome.next.inj h).symm⟩
    | block c =>
      rw [ht] at h hm
      exact .inr ⟨hb', .inl ⟨c, hm, (Host.Outcome.next.inj h).symm⟩⟩
    | key i =>
      rw [ht] at h hm
      exact .inr ⟨hb', .inr (.inl ⟨i, hm, (Host.Outcome.next.inj h).symm⟩)⟩
    | sched i =>
      rw [ht] at h
      exact .inl ⟨_, (Host.Outcome.next.inj h).symm⟩
    | reserved =>
      rw [ht] at h
      exact .inl ⟨_, (Host.Outcome.next.inj h).symm⟩

end Sys2Proof.Machine
end

