-- ==== Sys2Proof/Laws/Steps.lean ====
section
/-! SUPPORT. What a turn of the CORE, a host cycle and a step can do, once: later proofs cite these and do
not unfold the agents. -/

namespace Sys2Proof.Machine

/-! ### The CORE -/

/-- The word an EXPAND micro-step writes (43_key_schedule.md R144). -/
def State.expandWord (s : State) : Word :=
  match expandSelect s with
  | .keycopy => schedWord s.keyWords s.ki.val
  | .plain => s.wordNkBack ^^^ s.prevWord
  | .rotsub =>
    s.wordNkBack ^^^ (subWord sbox (rotByte s.prevWord) ^^^ rcon (s.ki.val / s.nk.nk - 1))
  | .subonly => s.wordNkBack ^^^ subWord sbox s.prevWord

theorem coreStep_idle {s : State} (h : s.op = .idle) : coreStep s = .next s := by
  simp [coreStep, h, exec, execHold]

theorem coreStep_expand {s : State} (h : s.op = .expand) :
    coreStep s = .next (s.expandWith s.expandWord) := by
  simp only [coreStep, h, State.expandWord]
  cases expandSelect s <;> rfl

theorem coreStep_cipher_init {s : State} (h : s.op = .cipher) (hr : s.rc.val = 0) :
    coreStep s = .next { s with blk := addKey s.blk (slice s.sched 0), rc := 1 } := by
  simp [coreStep, h, cipherSelect, hr, Ssel.toInstr, exec, execInit]

theorem coreStep_cipher_full {s : State} (h : s.op = .cipher) (h0 : 0 < s.rc.val)
    (hr : s.rc.val < s.nk.nr) :
    coreStep s = .next { s with
      blk := fullRound s.dir (slice s.sched s.rc.val) s.blk, rc := s.rc + 1 } := by
  simp [coreStep, h, cipherSelect, Nat.ne_of_gt h0, hr, Ssel.toInstr, exec, execFull]

theorem coreStep_cipher_last {s : State} (h : s.op = .cipher) (hr : s.nk.nr ≤ s.rc.val) :
    coreStep s = .next { s.finish with
      blk := lastRound s.dir (slice s.sched s.nk.nr) s.blk, rc := 0 } := by
  have h0 : s.rc.val ≠ 0 := by
    have : 10 ≤ s.nk.nr := by cases s.nk <;> decide
    omega
  simp [coreStep, h, cipherSelect, h0, Nat.not_lt.mpr hr, Ssel.toInstr, exec, execLast]

theorem coreStep_invsched {s : State} (h : s.op = .invsched) :
    coreStep s = .next s.invschedStep := by
  simp [coreStep, h]

theorem coreStep_next (s : State) : ∃ t, coreStep s = .next t := by
  cases h : s.op with
  | idle => exact ⟨_, coreStep_idle h⟩
  | expand => exact ⟨_, coreStep_expand h⟩
  | invsched => exact ⟨_, coreStep_invsched h⟩
  | cipher =>
    by_cases h0 : s.rc.val = 0
    · exact ⟨_, coreStep_cipher_init h h0⟩
    · by_cases hr : s.rc.val < s.nk.nr
      · exact ⟨_, coreStep_cipher_full h (Nat.pos_of_ne_zero h0) hr⟩
      · exact ⟨_, coreStep_cipher_last h (Nat.not_lt.mp hr)⟩

/-- Every way a turn of the CORE can end. -/
theorem coreStep_cases {s t : State} (h : coreStep s = .next t) :
    (s.op = .idle ∧ t = s)
    ∨ (s.op = .expand ∧ t = s.expandWith s.expandWord)
    ∨ (s.op = .cipher ∧ s.rc.val = 0
      ∧ t = { s with blk := addKey s.blk (slice s.sched 0), rc := 1 })
    ∨ (s.op = .cipher ∧ 0 < s.rc.val ∧ s.rc.val < s.nk.nr
      ∧ t = { s with blk := fullRound s.dir (slice s.sched s.rc.val) s.blk, rc := s.rc + 1 })
    ∨ (s.op = .cipher ∧ s.nk.nr ≤ s.rc.val
      ∧ t = { s.finish with blk := lastRound s.dir (slice s.sched s.nk.nr) s.blk, rc := 0 })
    ∨ (s.op = .invsched ∧ t = s.invschedStep) := by
  cases ho : s.op with
  | idle =>
    rw [coreStep_idle ho, Host.Outcome.next.injEq] at h
    exact .inl ⟨rfl, h.symm⟩
  | expand =>
    rw [coreStep_expand ho, Host.Outcome.next.injEq] at h
    exact .inr (.inl ⟨rfl, h.symm⟩)
  | invsched =>
    rw [coreStep_invsched ho, Host.Outcome.next.injEq] at h
    exact .inr (.inr (.inr (.inr (.inr ⟨rfl, h.symm⟩))))
  | cipher =>
    by_cases h0 : s.rc.val = 0
    · rw [coreStep_cipher_init ho h0, Host.Outcome.next.injEq] at h
      exact .inr (.inr (.inl ⟨rfl, h0, by rw [← h, ho]⟩))
    · by_cases hr : s.rc.val < s.nk.nr
      · rw [coreStep_cipher_full ho (Nat.pos_of_ne_zero h0) hr, Host.Outcome.next.injEq] at h
        exact .inr (.inr (.inr (.inl ⟨rfl, Nat.pos_of_ne_zero h0, hr, by rw [← h, ho]⟩)))
      · rw [coreStep_cipher_last ho (Nat.not_lt.mp hr), Host.Outcome.next.injEq] at h
        exact .inr (.inr (.inr (.inr (.inl ⟨rfl, Nat.not_lt.mp hr, h.symm⟩))))

/-! ### The HOST -/

theorem decodePort_pins (p : Pins) :
    decodePort p.code p.wdata =
      if p.sel then if p.we then .wr p.addr p.wdata else .rd p.addr else .idle p.we p.addr := by
  simp [decodePort, Pins.code]

/-- Every way a host cycle can end. -/
theorem hostCycle_cases {p : Pins} {s t : State} (h : hostCycle p s = .next t) :
    (p.rst = true ∧ t = (s.beginCycle p).applyReset)
    ∨ (p.rst = false ∧
      ((p.sel = false ∧ t = (s.beginCycle p).driveRdata 0)
      ∨ (p.sel = true ∧ p.we = false
        ∧ t = (s.beginCycle p).driveRdata ((s.beginCycle p).readPort p.addr))
      ∨ (p.sel = true ∧ p.we = true ∧ execWr p.addr p.wdata (s.beginCycle p) = .next t))) := by
  unfold hostCycle at h
  rw [decodePort_pins] at h
  cases hr : p.rst
  · rw [hr] at h
    cases hs : p.sel
    · simp [hs, exec, execIdle] at h
      simp [h]
    · cases hw : p.we
      · simp [hs, hw, exec, execRd] at h
        simp [h]
      · simp [hs, hw, exec] at h
        simp [h]
  · simp [hr] at h
    simp [h]

theorem execWr_next (a : Addr) (v : Word) (s : State) : ∃ t, execWr a v s = .next t := by
  refine unlessBusy_next s ?_
  cases target a with
  | ctrl => exact dispatch_next v s
  | status => exact refuse_next _ _
  | block c => exact ⟨_, rfl⟩
  | key i => exact ⟨_, rfl⟩
  | sched i => exact refuse_next _ _
  | reserved => exact refuse_next _ _

/-! ### A step -/

/-- Every way a step can end: what its event is, and the turn or cycle it runs. -/
theorem step_cases {s t : State} (h : step s = .next t) :
    (∃ rest, s.pending = .core :: rest ∧ coreStep { s with pending := rest } = .next t)
    ∨ (s.pending = [] ∧ s.busy = true ∧ coreStep s = .next t)
    ∨ (∃ p rest, s.pending = .host p :: rest ∧ hostCycle p { s with pending := rest } = .next t)
    ∨ (s.pending = [] ∧ s.busy = false ∧ hostCycle .quiet s = .next t) := by
  unfold step at h
  split at h
  · split at h
    · simp_all
    · simp_all
  · simp_all
  · simp_all

end Sys2Proof.Machine
end

