-- ==== Sys2Proof/Laws/HostProgram.lean ====
section
/-! SUPPORT. What an operation of a host program can do, once: it answers, and what the HOST knows grows by
one read at most. -/

namespace Sys2Proof.Machine

/-! ### What the HOST knows after an operation -/

@[simp] theorem HostRun.record_state (op : HostOp) (t : State) (r : HostRun) :
    (r.record op t).state = t := rfl

@[simp] theorem HostRun.record_reads (op : HostOp) (t : State) (r : HostRun) :
    (r.record op t).reads = if op.event.isRead then r.reads ++ [t.rdata] else r.reads := rfl

@[simp] theorem HostRun.record_held (op : HostOp) (t : State) (r : HostRun) :
    (r.record op t).held = (r.held && op.asserted.all fun v => t.rdata == v) := rfl

@[simp] theorem isRead_writeEvent (a : Addr) (v : Word) : (writeEvent a v).isRead = false := rfl

@[simp] theorem isRead_readEvent (a : Addr) : (readEvent a).isRead = true := rfl

@[simp] theorem andThenRun_next (r : HostRun) (f : HostRun → RunResult) :
    andThenRun (.next r) f = f r := rfl

/-! ### Reads -/

/-- `RD a = v` (30_encoding.md R94): the value `RD a` returns is read, and compared with v. -/
theorem runOp_read (a : Addr) (v : Option Word) (r : HostRun) : ∃ t,
    runOp (readOp a v) r = .next ⟨t, r.reads ++ [r.state.readPort a],
      r.held && v.all fun v => r.state.readPort a == v⟩
    ∧ hostCycle (pinsOfRead a) r.state = .next t :=
  ⟨((r.state.beginCycle (pinsOfRead a)).driveRdata (r.state.readPort a)), by
    have h : hostCycle (pinsOfRead a) r.state
        = .next ((r.state.beginCycle (pinsOfRead a)).driveRdata (r.state.readPort a)) := by
      rw [hostCycle, decodePort_pins]
      rfl
    refine ⟨?_, h⟩
    simp only [runOp, readOp, readEvent, runEvent, h]
    rfl⟩

/-! ### Every operation answers -/

theorem runEvent_next (e : Event) (s : State) : ∃ t, runEvent e s = .next t := by
  cases e with
  | core => exact coreStep_next s
  | host p =>
    simp only [runEvent, hostCycle, decodePort_pins]
    split
    · exact ⟨_, rfl⟩
    · split
      · split
        · exact execWr_next p.addr p.wdata _
        · exact ⟨_, rfl⟩
      · exact ⟨_, rfl⟩

/-- An operation answers the run that records its next state. -/
theorem runOp_next (op : HostOp) (r : HostRun) : ∃ t,
    runEvent op.event r.state = .next t ∧ runOp op r = .next (r.record op t) := by
  obtain ⟨t, h⟩ := runEvent_next op.event r.state
  exact ⟨t, h, by simp only [runOp, h]⟩

theorem runOps_next (ops : List HostOp) (r : HostRun) : ∃ q, runOps ops r = .next q := by
  induction ops generalizing r with
  | nil => exact ⟨r, rfl⟩
  | cons op ops ih =>
    obtain ⟨t, -, h⟩ := runOp_next op r
    rw [runOps, h]
    exact ih (r.record op t)

/-- A piece of a program after another. -/
theorem runOps_append (xs ys : List HostOp) (r : HostRun) :
    runOps (xs ++ ys) r = andThenRun (runOps xs r) (runOps ys) := by
  induction xs generalizing r with
  | nil => rfl
  | cons op xs ih =>
    obtain ⟨t, -, h⟩ := runOp_next op r
    simp only [List.cons_append, runOps, h, andThenRun_next]
    exact ih (r.record op t)

end Sys2Proof.Machine
end

