-- ==== Sys2Proof/Laws/PerInstr.lean ====
section
/-! SUPPORT. Statements made instruction by instruction. -/

namespace Sys2Proof.Laws.MatchesRow

/-- The row of the opcode table that an instruction belongs to selects its code (30_encoding.md R95). -/
def Statement (i : Instr) : Prop := i.row.selects (encode i) = true

/-- A PORT code's two top bits are `sel` and `we`. -/
theorem port_bits (sel we : Bool) (a : Addr) :
    (portCode sel we a).toNat &&& 0x180 = 256 * sel.toNat + 128 * we.toNat := by
  revert a
  cases sel <;> cases we <;> decide

theorem idle (we : Bool) (addr : Addr) : Statement (.idle we addr) := by
  revert addr
  cases we <;> unfold Statement <;> decide

theorem rd (addr : Addr) : Statement (.rd addr) := by
  have := port_bits true false addr
  simp_all [Statement, Row.selects, Instr.row, encode, Code.format, Code.bits]

theorem wr (addr : Addr) (wdata : Word) : Statement (.wr addr wdata) := by
  have := port_bits true true addr
  simp_all [Statement, Row.selects, Instr.row, encode, Code.format, Code.bits]

theorem nop : Statement .nop := by unfold Statement; decide

theorem expand (ks : BitVec 2) : Statement (.expand ks) := by
  revert ks
  unfold Statement
  decide

theorem encrypt : Statement .encrypt := by unfold Statement; decide

theorem decrypt : Statement .decrypt := by unfold Statement; decide

theorem invsched : Statement .invsched := by unfold Statement; decide

theorem hold : Statement .hold := by unfold Statement; decide

theorem hostwr : Statement .hostwr := by unfold Statement; decide

theorem init : Statement .init := by unfold Statement; decide

theorem full : Statement .full := by unfold Statement; decide

theorem last : Statement .last := by unfold Statement; decide

theorem keycopy : Statement .keycopy := by unfold Statement; decide

theorem plain : Statement .plain := by unfold Statement; decide

theorem rotsub : Statement .rotsub := by unfold Statement; decide

theorem subonly : Statement .subonly := by unfold Statement; decide

end Sys2Proof.Laws.MatchesRow
end

