-- ==== Sys2Proof/Tests/Slice0.lean ====
section
/-! SUPPORT. Tests: the encodings of spec/30_encoding.md written out by hand, single steps with the results
of spec/95_test_vectors.md, and for every statement with hypotheses a state that meets them. -/

namespace Sys2Proof.Tests

open Sys2Proof Sys2Proof.Machine

/-! ### Helpers -/

/-- A check of the next state. -/
def after (r : Result) (check : State → Bool) : Bool :=
  match r with
  | .next t => check t
  | .fault _ => false
  | .refused _ => false

/-- s with some words of W. -/
def withWords (s : State) (ws : List (Fin 60 × Word)) : State :=
  ws.foldl (fun s p => s.putSchedWord p.1 p.2) s

/-- The state after reset with one event to come. -/
def expecting (e : Event) : State := State.reset.expect e

/-- An idle core whose W is marked as a schedule of kind k. -/
def holding (k : Tag) : State := { State.reset with tag := k }

/-- An EXPAND for key size k at word i. -/
def expanding (k : KeySize) (i : Fin 60) : State :=
  { State.reset with op := .expand, busy := true, nk := k, ki := i }

/-- A cipher operation in direction d at round r. -/
def ciphering (k : KeySize) (d : Dir) (r : Fin 15) : State :=
  { State.reset with op := .cipher, busy := true, nk := k, dir := d, tag := d.kind, rc := r }

/-- An INVSCHED for key size k in phase p at word i. -/
def inverting (k : KeySize) (p : Phase) (i : Fin 60) : State :=
  { State.reset with op := .invsched, busy := true, nk := k, ph := p, ki := i }

/-- A state whose W and T are all ones and all zeros. -/
def filled (s : State) : State :=
  { s with w := Vector.replicate 60 1, t := Vector.replicate 60 0 }

/-! ### Syntax and decoding -/

theorem test_expand_with_ks_3_is_ill_formed : (Instr.expand 3).wellFormed = false := by decide

theorem test_decoder_refuses_ks_3 : decode (.ctrl 0x00000031) = .error (.ctrl .illegalKeysize) := by
  decide

/-- R81: `0waaaaaaa`, `10aaaaaaa`, `11aaaaaaa`. -/
theorem test_decode_port :
    decode (.port 0b001111011#9 5) = .ok (.idle false 0x7B)
    ∧ decode (.port 0b011111011#9 5) = .ok (.idle true 0x7B)
    ∧ decode (.port 0b101000000#9 5) = .ok (.rd 0x40)
    ∧ decode (.port 0b110000000#9 0x00000002) = .ok (.wr 0x00 0x00000002)
    ∧ decode (.port 0b110001111#9 0x1F1E1D1C) = .ok (.wr 0x0F 0x1F1E1D1C) := by decide

/-- R82, R83: CMD in bits 2:0, KS in bits 5:4. -/
theorem test_decode_ctrl :
    decode (.ctrl 0b00000000000000000000000000000000#32) = .ok .nop
    ∧ decode (.ctrl 0b00000000000000000000000000000001#32) = .ok (.expand 0)
    ∧ decode (.ctrl 0b00000000000000000000000000010001#32) = .ok (.expand 1)
    ∧ decode (.ctrl 0b00000000000000000000000000100001#32) = .ok (.expand 2)
    ∧ decode (.ctrl 0b00000000000000000000000000000010#32) = .ok .encrypt
    ∧ decode (.ctrl 0b00000000000000000000000000000011#32) = .ok .decrypt
    ∧ decode (.ctrl 0b00000000000000000000000000000100#32) = .ok .invsched := by decide

/-- R92: CMD in 5..7, bit 3, a bit of 31:6, KS without EXPAND. -/
theorem test_decode_ctrl_rejects :
    decode (.ctrl 0x00000005) = .error (.ctrl .illegalCmd)
    ∧ decode (.ctrl 0x00000009) = .error (.ctrl .illegalCmd)
    ∧ decode (.ctrl 0x80000001) = .error (.ctrl .illegalCmd)
    ∧ decode (.ctrl 0x00000041) = .error (.ctrl .illegalCmd)
    ∧ decode (.ctrl 0x00000010) = .error (.ctrl .illegalCmd)
    ∧ decode (.ctrl 0x00000012) = .error (.ctrl .illegalCmd) := by decide

/-- R90. -/
theorem test_decode_ssel :
    decode (.ssel 0b000#3) = .ok .hold ∧ decode (.ssel 0b001#3) = .ok .hostwr
    ∧ decode (.ssel 0b010#3) = .ok .init ∧ decode (.ssel 0b011#3) = .ok .full
    ∧ decode (.ssel 0b100#3) = .ok .last ∧ decode (.ssel 0b111#3) = .error .unusedSelect := by
  decide

/-- R91. -/
theorem test_decode_ksel :
    decode (.ksel 0b00#2) = .ok .keycopy ∧ decode (.ksel 0b01#2) = .ok .plain
    ∧ decode (.ksel 0b10#2) = .ok .rotsub ∧ decode (.ksel 0b11#2) = .ok .subonly := by decide

theorem test_table_words :
    decodeTableWord 16 0x180 = some (.wr 0x00 0) ∧ decodeTableWord 16 0x104 = some (.rd 0x04)
    ∧ decodeTableWord 32 0x00000011 = some (.expand 1) ∧ decodeTableWord 32 0x00000031 = none
    ∧ decodeTableWord 3 4 = some .last ∧ decodeTableWord 2 3 = some .subonly := by decide

/-- A placed word is what the next step runs: the first instruction after reset. -/
theorem test_placed_command_runs :
    after (step (State.reset.withFetchWord 32 0x00000021)) (fun t => statusWord t == 0x00000081)
      = true := by decide

theorem test_placed_select_runs :
    after (step (State.reset.withFetchWord 3 2)) (fun t => t.rc == 1) = true := by decide

/-! ### The PORT rows -/

theorem test_idle_drives_zero :
    after (exec (.idle true 0x04) { State.reset with rdata := 7 }) (fun t => t.rdata == 0) = true := by
  decide

/-- R180's example and R84's: STATUS during round 5 of a 128-bit encryption. -/
theorem test_rd_status :
    after (exec (.rd 0x01) (ciphering .k128 .forward 5)) (fun t => t.rdata == 0x00000511) = true := by
  decide

theorem test_rd_key7 :
    after (exec (.rd 0x0F) (State.reset.putKeyWord 7 0x1F1E1D1C)) (fun t => t.rdata == 0x1F1E1D1C)
      = true := by decide

/-- R181's example. -/
theorem test_wr_block0 :
    after (exec (.wr 0x04 0x33221100) State.reset) (fun t => t.blk[0] == 0x33221100 && !t.err)
      = true := by decide

/-- R207's example: BUSY_VIOLATION before ILLEGAL_CMD. -/
theorem test_wr_while_busy :
    after (exec (.wr 0x00 0x00000007) (expanding .k128 3))
      (fun t => t.errcode == some .busyViolation && t.ki == 3) = true := by decide

/-! ### The CTRL rows -/

/-- R183's example. -/
theorem test_nop_keeps_status :
    after (exec .nop { holding .fwd with done := true }) (fun t => statusWord t == 0x00000012)
      = true := by decide

/-- 95_test_vectors.md program P3, row 9. -/
theorem test_expand_256 :
    after (exec (.expand 2) State.reset) (fun t => statusWord t == 0x00000081) = true := by decide

/-- R182's example: no schedule after reset. -/
theorem test_encrypt_after_reset :
    after (exec .encrypt State.reset) (fun t => statusWord t == 0x00004004) = true := by decide

theorem test_decrypt_sets_direction :
    after (exec .decrypt (holding .inv)) (fun t => t.dir == .inverse && t.op == .cipher && t.rc == 0)
      = true := by decide

theorem test_decrypt_refuses_forward_schedule :
    after (exec .decrypt (holding .fwd)) (fun t => statusWord t == 0x00004014) = true := by decide

theorem test_invsched_clears_tag :
    after (exec .invsched (holding .fwd)) (fun t => statusWord t == 0x00000001 && t.ph == .compute)
      = true := by decide

/-! ### The round driver: vector V1 of 95_test_vectors.md section 2.6 -/

theorem test_hold : after (exec .hold (ciphering .k128 .forward 4)) (fun t => t.rc == 4) = true := by
  decide

theorem test_hostwr :
    after (exec .hostwr { State.reset with pins := pinsOfWrite 0x07 0xFFEEDDCC })
      (fun t => t.blk == #v[0, 0, 0, 0xFFEEDDCC]) = true := by decide

theorem test_init_round_0 :
    after
      (exec .init
        (withWords { ciphering .k128 .forward 0 with
            blk := #v[0x33221100, 0x77665544, 0xBBAA9988, 0xFFEEDDCC] }
          [(0, 0x03020100), (1, 0x07060504), (2, 0x0B0A0908), (3, 0x0F0E0D0C)]))
      (fun t => t.blk == #v[0x30201000, 0x70605040, 0xB0A09080, 0xF0E0D0C0] && t.rc == 1)
      = true := by decide

theorem test_full_round_1 :
    after
      (exec .full
        (withWords { ciphering .k128 .forward 1 with
            blk := #v[0x30201000, 0x70605040, 0xB0A09080, 0xF0E0D0C0] }
          [(4, 0xFD74AAD6), (5, 0xFA72AFD2), (6, 0xF178A6DA), (7, 0xFE76ABD6)]))
      (fun t => t.blk == #v[0xE810D889, 0x68CE5A85, 0xD843182D, 0xE48F12CB] && t.rc == 2)
      = true := by decide

/-- The inverse direction, decryption of V1, step 1. -/
theorem test_full_round_1_inverse :
    after
      (exec .full
        (withWords { ciphering .k128 .inverse 1 with
            blk := #v[0xA7FDD57A, 0x274EEF89, 0x0B10CA2B, 0x9FF59F3D] }
          [(4, 0xBE29AA13), (5, 0xF6AF8F9C), (6, 0x80F570F7), (7, 0x03BFF700)]))
      (fun t => t.blk == #v[0xA190D954, 0xB59AA06B, 0x0EF4BB96, 0x2F7011A1]) = true := by decide

theorem test_last_round_10 :
    after
      (exec .last
        (withWords { ciphering .k128 .forward 10 with
            blk := #v[0x3D7C6EBD, 0x9E77B5F2, 0x6E21610B, 0x89B6108B] }
          [(40, 0x7F1D1113), (41, 0x174A94E3), (42, 0x8BA707F3), (43, 0xC5302B4D)]))
      (fun t => t.blk == #v[0xD8E0C469, 0x30047B6A, 0x80B7CDD8, 0x5AC5B470]
        && statusWord t == 0x00000012) = true := by decide

/-! ### The key expander: 95_test_vectors.md section 2.5 -/

theorem test_keycopy :
    after (exec .keycopy ((expanding .k128 3).putKeyWord 3 0x0F0E0D0C))
      (fun t => t.w[3] == 0x0F0E0D0C && t.ki == 4) = true := by decide

theorem test_plain_word_5 :
    after (exec .plain (withWords (expanding .k128 5) [(1, 0x07060504), (4, 0xFD74AAD6)]))
      (fun t => t.w[5] == 0xFA72AFD2) = true := by decide

/-- The last word of V1: W[43] is W[39] XOR W[42], and the operation ends. -/
theorem test_plain_last_word :
    after (exec .plain (withWords (expanding .k128 43) [(39, 0x4E972CBE), (42, 0x8BA707F3)]))
      (fun t => t.w[43] == 0xC5302B4D && statusWord t == 0x00000012) = true := by decide

theorem test_rotsub_word_4 :
    after (exec .rotsub (withWords (expanding .k128 4) [(0, 0x03020100), (3, 0x0F0E0D0C)]))
      (fun t => t.w[4] == 0xFD74AAD6) = true := by decide

theorem test_subonly_word_12 :
    after (exec .subonly (withWords (expanding .k256 12) [(4, 0x13121110), (11, 0x9CC072A5)]))
      (fun t => t.w[12] == 0xCDA85116) = true := by decide

/-- IW[4] of V1 from W[36]. -/
theorem test_invsched_compute_word_4 :
    after (coreStep (withWords (inverting .k128 .compute 4) [(36, 0xD1329954)]))
      (fun t => t.t[4] == 0xBE29AA13 && t.ki == 5) = true := by decide

theorem test_invsched_copy_last_word :
    after (coreStep ((inverting .k128 .copy 43).putScratchWord 43 0x0F0E0D0C))
      (fun t => t.w[43] == 0x0F0E0D0C && statusWord t == 0x00000022) = true := by decide

/-! ### Reset and the host program notation -/

/-- A reset while BUSY stops the operation, discards the write and clears everything visible. -/
theorem test_reset_while_busy :
    after (hostCycle ⟨true, true, true, 0x00, 7⟩ { expanding .k256 9 with err := true, errcode := some .badAccess })
      (fun t => statusWord t == 0 && t.op == .idle && t.ki == 0) = true := by decide

/-- R56's example, as the lines of R94. -/
theorem test_loadblock_events :
    (HostLine.loadBlock
      ([0x00, 0x11, 0x22, 0x33, 0x44, 0x55, 0x66, 0x77]
        ++ [0x88, 0x99, 0xaa, 0xbb, 0xcc, 0xdd, 0xee, 0xff])).events
      = [writeEvent 0x04 0x33221100, writeEvent 0x05 0x77665544, writeEvent 0x06 0xBBAA9988,
        writeEvent 0x07 0xFFEEDDCC] := by decide

theorem test_line_encodings :
    (HostLine.expand .k192).events = [writeEvent 0x00 0x00000011]
    ∧ HostLine.decrypt.events = [writeEvent 0x00 0x00000003]
    ∧ (HostLine.turns 2).events = [.core, .core] := by decide

/-- A check of what a program's run ends with. -/
def afterRun (r : RunResult) (check : HostRun → Bool) : Bool :=
  match r with
  | .next q => check q
  | .fault _ => false
  | .refused _ => false

/-- `WAIT` in the last micro-step of an EXPAND reads STATUS twice. -/
theorem test_wait_ends :
    afterRun (runProgram [.wait] (expanding .k128 43))
      (fun q => !q.state.busy && q.reads == [0x00000001, 0x00000012] && q.held) = true := by decide

/-- `READBLOCK = h` holds of R56's example and of no block with another byte. -/
theorem test_readblock_asserts :
    let s := { State.reset with blk := #v[0x33221100, 0x77665544, 0xBBAA9988, 0xFFEEDDCC] }
    let h : List Byte := [0x00, 0x11, 0x22, 0x33, 0x44, 0x55, 0x66, 0x77]
      ++ [0x88, 0x99, 0xaa, 0xbb, 0xcc, 0xdd, 0xee, 0xff]
    afterRun (runProgram [.line (.readBlock (some h))] s)
        (fun q => q.held && bytesOfReads q.reads == h) = true
    ∧ afterRun (runProgram [.line (.readBlock (some (h.set 15 0)))] s) (fun q => !q.held) = true := by
  decide

/-- `RD a = v`, first true and then false; every value read is kept. -/
theorem test_rd_asserts :
    afterRun
      (runProgram [.line (.wr 0x08 5), .line (.rd 0x08 (some 5)), .line (.rd 0x01 none)] State.reset)
      (fun q => q.held && q.reads == [5, 0]) = true
    ∧ afterRun (runProgram [.line (.rd 0x08 (some 5)), .line (.rd 0x08 (some 0))] State.reset)
      (fun q => !q.held && q.reads == [0, 0]) = true := by decide

/-! ### Witnesses: the hypotheses of each statement can be met -/

/-- Equal outcomes are seen through `after`. -/
theorem next_of_after {r : Result} {check : State → Bool} (h : after r check = true) :
    ∃ t, r = .next t ∧ check t = true := by
  cases r with
  | next t => exact ⟨t, rfl, h⟩
  | fault x => exact nomatch x
  | refused x => exact nomatch h

theorem witness_EncodedInstrDecodesBack :
    (Instr.expand 2).wellFormed = true ∧ (Instr.wr 0x7F 0xFFFFFFFF).wellFormed = true := by decide

theorem witness_DecoderFollowsTheTable :
    decode (.port 0x1FF 7) = .ok (.wr 0x7F 7)
    ∧ (Instr.wr 0x00 0).row.selects (.port 0x1FF 7) = true := by decide

theorem witness_LegalCtrlWordsAreTheEight :
    State.reset.busy = false
    ∧ (0x00000005 : Word) ∉ [0x00000000, 0x00000001, 0x00000011, 0x00000021, 0x00000031, 0x00000002,
        0x00000003, 0x00000004] := by
  constructor <;> decide +kernel

/-- One state for each clause about a pending event or an operation. -/
theorem witness_StepRunsTheDecodedInstruction :
    (expecting (.host (pinsOfWrite 0x7F 1))).pending = .host (pinsOfWrite 0x7F 1) :: []
    ∧ (pinsOfWrite 0x7F 1).rst = false
    ∧ (expecting (.host (pinsOfWrite 0x00 0x21))).pending
        = .host ⟨false, true, true, 0x00, 0x00000021⟩ :: []
    ∧ decode (.ctrl 0x00000021) = .ok (.expand 2)
    ∧ acceptsBlockWrite State.reset (pinsOfWrite 0x04 1) = true
    ∧ acceptsBlockWrite State.reset (pinsOfWrite 0x07 1) = true
    ∧ (expecting .core).pending = .core :: []
    ∧ (expanding .k128 0).pending = [] ∧ (expanding .k128 0).busy = true
    ∧ State.reset.pending = [] ∧ State.reset.busy = false ∧ State.reset.op = .idle
    ∧ (ciphering .k128 .forward 0).op = .cipher ∧ (expanding .k128 0).op = .expand
    ∧ (inverting .k128 .compute 0).op = .invsched ∧ (inverting .k128 .compute 0).ph = .compute
    ∧ (inverting .k128 .copy 0).ph = .copy := by decide

/-- The address clauses of R180 and R181 share no address and leave none out. -/
theorem witness_address_clauses (a : Addr) :
    ([decide (a.toNat = 0x00), decide (a.toNat = 0x01), decide (a.toNat = 0x02 ∨ a.toNat = 0x03),
      decide (∃ c : Fin 4, a.toNat = 0x04 + c.val), decide (∃ i : Fin 8, a.toNat = 0x08 + i.val),
      decide (0x10 ≤ a.toNat ∧ a.toNat ≤ 0x3F), decide (∃ i : Fin 60, a.toNat = 0x40 + i.val),
      decide (0x7C ≤ a.toNat)].count true) = 1 := by
  revert a
  decide +kernel

/-- The boundary address of each clause. -/
theorem witness_ReadReturnsTheAddressedRegister :
    (0x01 : Addr).toNat = 0x01 ∧ (0x07 : Addr).toNat = 0x04 + (3 : Fin 4).val
    ∧ (0x08 : Addr).toNat = 0x08 + (0 : Fin 8).val ∧ (0x0F : Addr).toNat = 0x08 + (7 : Fin 8).val
    ∧ (0x40 : Addr).toNat = 0x40 + (0 : Fin 60).val ∧ (0x7B : Addr).toNat = 0x40 + (59 : Fin 60).val
    ∧ 0x10 ≤ (0x10 : Addr).toNat ∧ (0x3F : Addr).toNat ≤ 0x3F ∧ 0x7C ≤ (0x7C : Addr).toNat := by
  decide

theorem witness_WriteFollowsItsRule :
    (expanding .k128 0).busy = true ∧ State.reset.busy = false
    ∧ (0x04 : Addr).toNat = 0x04 + (0 : Fin 4).val ∧ (0x0F : Addr).toNat = 0x08 + (7 : Fin 8).val
    ∧ (0x00 : Addr).toNat = 0x00 ∧ (0x03 : Addr).toNat = 0x03 ∧ 0x10 ≤ (0x10 : Addr).toNat := by
  decide

theorem witness_CtrlWriteFollowsTheDispatchOrder :
    State.reset.busy = false ∧ (holding .fwd).busy = false ∧ (holding .fwd).tag = .fwd
    ∧ (holding .inv).busy = false ∧ (holding .inv).tag = .inv := by decide

theorem witness_RefusalRecordsTheFirstCauseOnly :
    (∃ t, coreStep (ciphering .k128 .forward 0) = .next t)
    ∧ (∃ t, exec (.idle true 3) State.reset = .next t) ∧ (∃ t, exec (.rd 3) State.reset = .next t)
    ∧ ∃ t, exec (.wr 3 1) State.reset = .next t := ⟨⟨_, rfl⟩, ⟨_, rfl⟩, ⟨_, rfl⟩, ⟨_, rfl⟩⟩

theorem witness_RefusalPriority :
    (State.reset.raise .badAccess).err = true
    ∧ (∃ t, exec (.wr 0x40 0) (State.reset.raise .illegalCmd) = .next t)
    ∧ (expanding .k128 0).err = false ∧ (expanding .k128 0).errcode = none :=
  ⟨rfl, ⟨_, rfl⟩, rfl, rfl⟩

/-- For the five statements about accepting a command: BUSY, each TAG, and a malformed word of each. -/
theorem witness_Acceptance :
    (expanding .k128 0).busy = true ∧ State.reset.busy = false ∧ State.reset.tag ≠ .fwd
    ∧ State.reset.tag ≠ .inv ∧ (holding .fwd).busy = false ∧ (holding .fwd).tag = .fwd
    ∧ (holding .inv).busy = false ∧ (holding .inv).tag = .inv
    ∧ (0x00000009 : Word).extractLsb' 0 3 = 1 ∧ (0x00000009 : Word).getLsbD 3 = true
    ∧ (0x80000002 : Word).extractLsb' 0 3 = 2 ∧ (0x80000002 : Word).extractLsb' 6 26 ≠ 0
    ∧ (0x00000013 : Word).extractLsb' 0 3 = 3 ∧ (0x00000013 : Word).extractLsb' 4 2 ≠ 0
    ∧ (0x00000044 : Word).extractLsb' 0 3 = 4 ∧ (0x00000044 : Word).extractLsb' 6 26 ≠ 0 := by decide

/-- A cipher state meets the control invariants. -/
theorem witness_ControlSound_ciphering : ControlSound (ciphering .k192 .inverse 12) := by
  constructor <;> decide

theorem witness_ControlSound_expanding : ControlSound (expanding .k256 59) := by
  constructor <;> decide

theorem witness_ControlSound_inverting :
    ControlSound (inverting .k128 .compute 43) ∧ ControlSound (inverting .k256 .copy 59) :=
  ⟨by constructor <;> decide, by constructor <;> decide⟩

theorem witness_ControlSound_idle : ControlSound (holding .fwd) ∧ ControlSound (holding .inv) :=
  ⟨by constructor <;> decide, by constructor <;> decide⟩

/-- The round clauses at 0, 1, Nr-1 and Nr, and HOSTWR at both ends of S. -/
theorem witness_StateSelectTable :
    ({ State.reset with pins := pinsOfWrite 0x07 1 } : State).pins.addr.toNat = 0x04 + (3 : Fin 4).val
    ∧ ({ State.reset with pins := pinsOfWrite 0x04 1 } : State).pins.addr.toNat = 0x04 + (0 : Fin 4).val
    ∧ (ciphering .k128 .forward 0).rc.val = 0
    ∧ 1 ≤ (ciphering .k128 .forward 1).rc.val
    ∧ (ciphering .k256 .inverse 13).rc.val < (ciphering .k256 .inverse 13).nk.nr
    ∧ (ciphering .k256 .inverse 14).rc.val = (ciphering .k256 .inverse 14).nk.nr := by decide

theorem witness_StateMultiplexer :
    (∃ t, step (expecting (.host (pinsOfWrite 0x05 1))) = .next t)
    ∧ (∃ t, step (expecting (.host ⟨true, false, false, 0, 0⟩)) = .next t)
    ∧ ∃ t, step ((ciphering .k128 .forward 10).expect .core) = .next t :=
  ⟨⟨_, rfl⟩, ⟨_, rfl⟩, ⟨_, rfl⟩⟩

theorem witness_CipherMicroStep :
    (ciphering .k128 .forward 0).op = .cipher ∧ (ciphering .k128 .forward 0).rc.val = 0
    ∧ 0 < (ciphering .k128 .forward 9).rc.val
    ∧ (ciphering .k128 .forward 9).rc.val < (ciphering .k128 .forward 9).nk.nr
    ∧ (ciphering .k128 .forward 10).rc.val = (ciphering .k128 .forward 10).nk.nr := by decide

theorem witness_KeyExpanderSelectTable :
    (expanding .k128 3).ki.val < (expanding .k128 3).nk.nk
    ∧ (expanding .k128 4).nk.nk ≤ (expanding .k128 4).ki.val
    ∧ (expanding .k128 4).ki.val % (expanding .k128 4).nk.nk = 0
    ∧ (expanding .k256 12).nk.nk ≤ (expanding .k256 12).ki.val ∧ 6 < (expanding .k256 12).nk.nk
    ∧ (expanding .k256 12).ki.val % (expanding .k256 12).nk.nk = 4
    ∧ expandSelect (expanding .k128 3) = .keycopy ∧ expandSelect (expanding .k128 4) = .rotsub
    ∧ expandSelect (expanding .k128 5) = .plain
    ∧ (expanding .k128 5).nk.nk ≤ (expanding .k128 5).ki.val
    ∧ expandSelect (expanding .k192 10) = .plain ∧ expandSelect (expanding .k256 12) = .subonly := by
  decide

/-- The word clauses just below LAST and at it. -/
theorem witness_ExpandMicroStep :
    (expanding .k128 42).op = .expand ∧ (expanding .k128 42).ki.val < KeySize.k128.last
    ∧ KeySize.k128.last ≤ (expanding .k128 43).ki.val := by decide

theorem witness_InvschedMicroSteps :
    (inverting .k256 .compute 58).op = .invsched ∧ (inverting .k256 .compute 58).ph = .compute
    ∧ (inverting .k256 .compute 58).ki.val < KeySize.k256.last
    ∧ KeySize.k256.last ≤ (inverting .k256 .compute 59).ki.val
    ∧ (inverting .k256 .copy 59).ph = .copy := by decide

theorem witness_PortAndCommandRowsFrame :
    (∃ t, exec (.wr 0x05 1) State.reset = .next t)
    ∧ (0x05 : Addr).toNat ≠ 0x04 + (0 : Fin 4).val ∧ (0x05 : Addr).toNat ≠ 0x08 + (0 : Fin 8).val
    ∧ (∃ t, exec (.expand 1) State.reset = .next t) ∧ ∃ t, exec .decrypt (holding .inv) = .next t :=
  ⟨⟨_, rfl⟩, by decide, by decide, ⟨_, rfl⟩, ⟨_, rfl⟩⟩

theorem witness_RoundDriverRowsFrame :
    (∃ t, exec .init (ciphering .k128 .forward 0) = .next t)
    ∧ ∃ t, exec .last (ciphering .k128 .forward 10) = .next t := ⟨⟨_, rfl⟩, ⟨_, rfl⟩⟩

theorem witness_KeyExpanderStepsFrame :
    (∃ t, exec .keycopy (expanding .k128 0) = .next t)
    ∧ (∃ t, coreStep (inverting .k128 .compute 0) = .next t)
    ∧ ∃ t, coreStep (inverting .k128 .copy 43) = .next t := ⟨⟨_, rfl⟩, ⟨_, rfl⟩, ⟨_, rfl⟩⟩

/-- A word of KEY and a word of S that a write changes, and words of S that a cipher step changes. -/
theorem witness_KeyAndBlockWriters :
    (∃ t, step (expecting (.host (pinsOfWrite 0x0F 1))) = .next t ∧ (t.key[7] != 0) = true)
    ∧ (∃ t, step (expecting (.host (pinsOfWrite 0x04 1))) = .next t ∧ (t.blk[0] != 0) = true)
    ∧ ∃ t, step (filled (ciphering .k128 .forward 0)) = .next t ∧ (t.blk[3] != 0) = true :=
  ⟨next_of_after (check := fun t => t.key[7] != 0) (by decide),
    next_of_after (check := fun t => t.blk[0] != 0) (by decide),
    next_of_after (check := fun t => t.blk[3] != 0) (by decide)⟩

theorem witness_ScheduleMemoryWriters :
    (∃ t, step (filled (expanding .k128 3)) = .next t ∧ (t.w[3] != 1) = true)
    ∧ (∃ t, step (filled (inverting .k128 .copy 43)) = .next t ∧ (t.w[43] != 1) = true)
    ∧ ∃ t, step (filled (inverting .k128 .compute 0)) = .next t ∧ (t.t[0] != 0) = true :=
  ⟨next_of_after (check := fun t => t.w[3] != 1) (by decide),
    next_of_after (check := fun t => t.w[43] != 1) (by decide),
    next_of_after (check := fun t => t.t[0] != 0) (by decide)⟩

/-- No step here is a reset, and each of NK, TAG (three ways), RC and DIR changes. -/
theorem witness_ControlRegisterWriters :
    (∃ t, step (State.expect (.host (pinsOfWrite 0 0x11)) (holding .fwd)) = .next t
      ∧ (t.nk == .k192 && t.tag == .none) = true)
    ∧ (∃ t, step (State.expect (.host (pinsOfWrite 0 3)) (holding .inv)) = .next t
      ∧ (t.dir == .inverse) = true)
    ∧ (∃ t, step (ciphering .k128 .forward 0) = .next t ∧ (t.rc == 1) = true)
    ∧ (∃ t, step (expanding .k128 43) = .next t ∧ (t.tag == .fwd) = true)
    ∧ ∃ t, step (inverting .k128 .copy 43) = .next t ∧ (t.tag == .inv) = true :=
  ⟨next_of_after (check := fun t => t.nk == .k192 && t.tag == .none) (by decide),
    next_of_after (check := fun t => t.dir == .inverse) (by decide),
    next_of_after (check := fun t => t.rc == 1) (by decide),
    next_of_after (check := fun t => t.tag == .fwd) (by decide),
    next_of_after (check := fun t => t.tag == .inv) (by decide)⟩

/-- A pending host cycle with `rst` low is no reset. -/
theorem witness_no_reset :
    ¬nextIsReset (expecting (.host (pinsOfWrite 0 3))) ∧ ¬nextIsReset (expanding .k128 43)
    ∧ nextIsReset (expecting resetEvent) := by
  refine ⟨?_, ?_, ⟨_, ⟨[], rfl⟩, rfl⟩⟩
  · rintro ⟨p, ⟨rest, h⟩, hr⟩
    cases h
    cases hr
  · rintro ⟨p, ⟨rest, h⟩, _⟩
    cases h

theorem witness_DoneFollowsOperations :
    (∃ t, step (ciphering .k128 .forward 10) = .next t ∧ t.done = true)
    ∧ (ciphering .k128 .forward 10).done = false
    ∧ ∃ t, step (State.expect (.host (pinsOfWrite 0 1)) { State.reset with done := true }) = .next t
      ∧ (!t.done) = true :=
  ⟨next_of_after (check := fun t => t.done) (by decide), rfl,
    next_of_after (check := fun t => !t.done) (by decide)⟩

theorem witness_ErrIsStickyUntilReset :
    (State.reset.raise .badAccess).err = true
    ∧ (∃ t, step (State.expect (.host (pinsOfWrite 0 9)) (State.reset.raise .badAccess)) = .next t)
    ∧ ∃ t, step (State.expect resetEvent (State.reset.raise .badAccess)) = .next t :=
  ⟨rfl, ⟨_, rfl⟩, ⟨_, rfl⟩⟩

theorem witness_ErrNeverInfluences :
    ∃ t, step (State.expect (.host (pinsOfWrite 0 1)) (State.reset.raise .badAccess)) = .next t :=
  ⟨_, rfl⟩

theorem witness_ReadsChangeNothing :
    (⟨false, true, false, 0x7B, 0⟩ : Pins).rst = false ∧ (⟨false, true, false, 0x7B, 0⟩ : Pins).sel = true
    ∧ (⟨false, true, false, 0x7B, 0⟩ : Pins).we = false := by decide

theorem witness_HostCycleNeverDisturbsTheOperation :
    (expanding .k128 3).busy = true ∧ (pinsOfWrite 0x08 5).rst = false
    ∧ ∃ t, coreStep (expanding .k128 3) = .next t := ⟨rfl, rfl, ⟨_, rfl⟩⟩

theorem witness_KeyMattersOnlyToExpand :
    (ciphering .k128 .forward 0).op ≠ .expand ∧ ∃ t, step (ciphering .k128 .forward 0) = .next t :=
  ⟨by decide, ⟨_, rfl⟩⟩

/-- T may differ above KI in the compute phase, above LAST in the copy phase, and anywhere when idle. -/
theorem witness_ScratchContentsNeverMatter :
    scratchAgrees (filled (inverting .k128 .compute 5)) ((Vector.replicate 60 0).set 5 1)
    ∧ scratchAgrees (filled (inverting .k128 .copy 5)) ((Vector.replicate 60 0).set 44 1)
    ∧ scratchAgrees (filled State.reset) (Vector.replicate 60 1)
    ∧ ∃ t, step (filled (inverting .k128 .compute 5)) = .next t := by
  refine ⟨fun _ => ⟨fun _ => by decide, fun h => absurd h (by decide)⟩,
    fun _ => ⟨fun h => absurd h (by decide), fun _ => by decide⟩, fun h => absurd h (by decide), ⟨_, rfl⟩⟩

/-- For the statements about the results of the operations. -/
theorem witness_Results :
    (holding .fwd).busy = false ∧ (holding .fwd).tag = .fwd ∧ (holding .inv).busy = false
    ∧ (holding .inv).tag = .inv ∧ ControlSound (holding .fwd) ∧ ControlSound (holding .inv) :=
  ⟨rfl, rfl, rfl, rfl, witness_ControlSound_idle⟩

theorem witness_OperationEndsAfterItsCount :
    (expanding .k256 59).busy = true ∧ (ciphering .k192 .inverse 12).busy = true
    ∧ (inverting .k128 .compute 43).busy = true ∧ (inverting .k256 .copy 59).busy = true := by decide

theorem witness_ControlSoundIsKept : ∃ t, step (expanding .k256 59) = .next t := ⟨_, rfl⟩

/-- An EXPAND at its first word is sound: nothing is claimed of W yet. -/
theorem witness_SoundIsKept : Sound (expanding .k256 0) ∧ ∃ t, step (expanding .k256 0) = .next t := by
  refine ⟨⟨by constructor <;> decide, ?_⟩, ⟨_, rfl⟩⟩
  constructor
  · exact fun h => absurd h (by decide)
  · exact fun h => absurd h (by decide)
  · intro _
    simp [State.schedTo, expanding]
  · exact fun h => absurd h (by decide)
  · exact fun h => absurd h (by decide)

theorem witness_ResetCycleGivesTheResetState :
    (⟨true, true, false, 0x04, 0⟩ : Pins).rst = true ∧ (⟨true, true, false, 0x04, 0⟩ : Pins).sel = true
    ∧ (⟨true, true, false, 0x04, 0⟩ : Pins).we = false
    ∧ (⟨true, false, false, 0, 0⟩ : Pins).sel = false := by decide

theorem witness_ClockEdgePriority :
    (⟨true, true, true, 0x04, 1⟩ : Pins).rst = true ∧ State.reset.busy = false
    ∧ (pinsOfWrite 0x04 1).rst = false ∧ (expanding .k128 0).busy = true
    ∧ (pinsOfWrite 0x04 1).sel = true ∧ (pinsOfWrite 0x04 1).we = true
    ∧ Pins.quiet.sel = false := by decide

theorem witness_DoubleLaws : (0x7F : Byte).getLsbD 7 = false ∧ (0x80 : Byte).getLsbD 7 = true := by
  decide

theorem witness_MultiplyLaws : (0x53 : Byte) ≠ 0 ∧ multiply 0x53 0xCA = 0x01 ∧ 0 < (50 : Fin 51).val := by
  decide

theorem witness_ByteSequences :
    (List.replicate 16 (0xA5 : Byte)).length = 16
    ∧ (List.replicate 24 (0xA5 : Byte)).length = 4 * KeySize.k192.nk := by decide

end Sys2Proof.Tests
end

/-! The bytes of a word (00_scope.md R10) and the byte rotation (43_key_schedule.md R141). -/

namespace Sys2Proof.Machine

@[simp] theorem byteAt_wordOf_zero (b0 b1 b2 b3 : Byte) : byteAt (wordOf b0 b1 b2 b3) 0 = b0 :=
  BitVec.extractLsb'_append_eq_right

@[simp] theorem byteAt_wordOf_one (b0 b1 b2 b3 : Byte) : byteAt (wordOf b0 b1 b2 b3) 1 = b1 :=
  (BitVec.extractLsb'_append_eq_of_le (by decide)).trans BitVec.extractLsb'_append_eq_right

@[simp] theorem byteAt_wordOf_two (b0 b1 b2 b3 : Byte) : byteAt (wordOf b0 b1 b2 b3) 2 = b2 :=
  calc byteAt (wordOf b0 b1 b2 b3) 2
    _ = (b3 ++ b2 ++ b1).extractLsb' 8 8 := BitVec.extractLsb'_append_eq_of_le (by decide)
    _ = (b3 ++ b2).extractLsb' 0 8 := BitVec.extractLsb'_append_eq_of_le (by decide)
    _ = b2 := BitVec.extractLsb'_append_eq_right

@[simp] theorem byteAt_wordOf_three (b0 b1 b2 b3 : Byte) : byteAt (wordOf b0 b1 b2 b3) 3 = b3 :=
  calc byteAt (wordOf b0 b1 b2 b3) 3
    _ = (b3 ++ b2 ++ b1).extractLsb' 16 8 := BitVec.extractLsb'_append_eq_of_le (by decide)
    _ = (b3 ++ b2).extractLsb' 8 8 := BitVec.extractLsb'_append_eq_of_le (by decide)
    _ = b3 := BitVec.extractLsb'_append_eq_left

/-- Adjacent bytes join to one extract, from the most significant byte down. -/
@[simp] theorem wordOf_byteAt (v : Word) :
    wordOf (byteAt v 0) (byteAt v 1) (byteAt v 2) (byteAt v 3) = v := by
  have h32 : byteAt v 3 ++ byteAt v 2 = v.extractLsb' 16 16 :=
    BitVec.extractLsb'_append_extractLsb'_eq_extractLsb' rfl
  have h321 : byteAt v 3 ++ byteAt v 2 ++ byteAt v 1 = v.extractLsb' 8 24 := by
    rw [h32]
    exact BitVec.extractLsb'_append_extractLsb'_eq_extractLsb' rfl
  rw [wordOf, h321]
  exact BitVec.extractLsb'_append_extractLsb'

theorem rotByte_eq_shift_or (v : Word) : rotByte v = (v >>> 8) ||| (v <<< 24) :=
  BitVec.rotateRight_def

/-- Bytes 0 to 2 come from the bits that stay below the wrap of the rotation, byte 3 from those
that wrap. -/
theorem byteAt_rotByte (v : Word) (j : Nat) (hj : j < 4) :
    byteAt (rotByte v) j = byteAt v ((j + 1) % 4) := by
  ext i hi
  have hbit : (rotByte v).getLsbD (8 * j + i) = v.getLsbD (8 * ((j + 1) % 4) + i) := by
    rw [rotByte, rotr32, BitVec.getLsbD_rotateRight_of_lt (by decide), Bool.cond_decide]
    obtain rfl | hlow : j = 3 ∨ j < 3 := by omega
    · rw [if_neg (by omega)]
      simp [show 24 + i < 32 by omega]
    · rw [if_pos (by omega), Nat.mod_eq_of_lt (by omega)]
      congr 1
      omega
  simpa [byteAt] using hbit

theorem rotByte_eq_wordOf (v : Word) :
    rotByte v = wordOf (byteAt v 1) (byteAt v 2) (byteAt v 3) (byteAt v 0) := by
  rw [← wordOf_byteAt (rotByte v)]
  simp only [byteAt_rotByte, Nat.reduceLT, Nat.reduceAdd, Nat.reduceMod]

end Sys2Proof.Machine

namespace Sys2Proof.Proofs

open Sys2Proof.Machine

/-- Settles O59, from the byte-by-byte reading of `wordOf` and of `rotByte`. -/
theorem bytesOfAWord : Obligations.BytesOfAWord :=
  ⟨fun b0 b1 b2 b3 => ⟨byteAt_wordOf_zero b0 b1 b2 b3, byteAt_wordOf_one b0 b1 b2 b3,
      byteAt_wordOf_two b0 b1 b2 b3, byteAt_wordOf_three b0 b1 b2 b3⟩,
    wordOf_byteAt, rotByte_eq_wordOf, rotByte_eq_shift_or⟩

end Sys2Proof.Proofs

/-! The next event of a step, and each way a turn of the CORE and a host cycle can end, as one named case. -/

namespace Sys2Proof.Machine

/-! ### Taking the next event -/

/-- The state the next event is run in: s without that event. -/
def State.takeEvent (s : State) : State := { s with pending := s.pending.tail }

theorem State.takeEvent_eq_self {s : State} (h : s.pending = []) : s.takeEvent = s := by
  rw [State.takeEvent, h, List.tail_nil, ← h]

/-- The pins of the next event when that is a host cycle, pending or (when nothing is) a quiet one. -/
def nextPins (s : State) (p : Pins) : Prop :=
  nextIsHost s p ∨ (s.pending = [] ∧ s.busy = false ∧ p = .quiet)

theorem nextIsCore_or_nextPins (s : State) : nextIsCore s ∨ ∃ p, nextPins s p := by
  cases hp : s.pending with
  | nil =>
    cases hb : s.busy with
    | true => exact .inl (.inr ⟨hp, hb⟩)
    | false => exact .inr ⟨.quiet, .inr ⟨hp, hb, rfl⟩⟩
  | cons e rest =>
    cases e with
    | core => exact .inl (.inl ⟨rest, hp⟩)
    | host p => exact .inr ⟨p, .inl ⟨rest, hp⟩⟩

theorem step_of_nextIsCore {s : State} (h : nextIsCore s) : step s = coreStep s.takeEvent := by
  obtain ⟨rest, hp⟩ | ⟨hp, hb⟩ := h
  · simp [step, State.takeEvent, hp]
  · simp [step, State.takeEvent_eq_self hp, hp, hb]

theorem step_of_nextPins {s : State} {p : Pins} (h : nextPins s p) :
    step s = hostCycle p s.takeEvent := by
  obtain ⟨rest, hp⟩ | ⟨hp, hb, rfl⟩ := h
  · simp [step, State.takeEvent, hp]
  · simp [step, State.takeEvent_eq_self hp, hp, hb]

theorem nextIsReset_of_nextPins {s : State} {p : Pins} (h : nextPins s p) (hr : p.rst = true) :
    nextIsReset s := by
  obtain hh | ⟨-, -, rfl⟩ := h
  · exact ⟨p, hh, hr⟩
  · cases hr

/-- The pins carry a write to address a that no reset discards. -/
structure Pins.Writes (p : Pins) (a : Nat) : Prop where
  rst : p.rst = false
  sel : p.sel = true
  we : p.we = true
  addr : p.addr.toNat = a

theorem nextIsWrite_of_nextPins {s : State} {p : Pins} {a : Nat} (h : nextPins s p)
    (hw : p.Writes a) : nextIsWrite s a := by
  obtain hh | ⟨-, -, rfl⟩ := h
  · exact ⟨p, hh, hw.rst, hw.sel, hw.we, hw.addr⟩
  · cases hw.sel

/-! ### A turn of the CORE -/

/-- What a turn of the CORE makes of s: the micro-steps of R144, R148, R149 and R165, each with its two
endings, and HOLD. -/
inductive CoreEffect (s : State) : State → Prop
  | hold (ho : s.op = .idle) : CoreEffect s s
  | expandNext (ho : s.op = .expand) (hk : s.ki.val < s.nk.last) :
      CoreEffect s { s.putSchedWord s.ki s.expandWord with ki := s.ki + 1 }
  | expandEnd (ho : s.op = .expand) (hk : s.nk.last ≤ s.ki.val) :
      CoreEffect s { (s.putSchedWord s.ki s.expandWord).finish with ki := 0, tag := .fwd }
  | cipherInit (ho : s.op = .cipher) (hr : s.rc.val = 0) :
      CoreEffect s { s with blk := addKey s.blk (slice s.sched 0), rc := 1 }
  | cipherFull (ho : s.op = .cipher) (h0 : 0 < s.rc.val) (hr : s.rc.val < s.nk.nr) :
      CoreEffect s { s with
        blk := fullRound s.dir (slice s.sched s.rc.val) s.blk, rc := s.rc + 1 }
  | cipherLast (ho : s.op = .cipher) (hr : s.nk.nr ≤ s.rc.val) :
      CoreEffect s { s.finish with blk := lastRound s.dir (slice s.sched s.nk.nr) s.blk, rc := 0 }
  | computeNext (ho : s.op = .invsched) (hp : s.ph = .compute) (hk : s.ki.val < s.nk.last) :
      CoreEffect s { s.putScratchWord s.ki (invschedWord s.sched s.nk.nr s.ki.val) with
        ki := s.ki + 1 }
  | computeEnd (ho : s.op = .invsched) (hp : s.ph = .compute) (hk : s.nk.last ≤ s.ki.val) :
      CoreEffect s { s.putScratchWord s.ki (invschedWord s.sched s.nk.nr s.ki.val) with
        ki := 0, ph := .copy }
  | copyNext (ho : s.op = .invsched) (hp : s.ph = .copy) (hk : s.ki.val < s.nk.last) :
      CoreEffect s { s.putSchedWord s.ki s.t[s.ki] with ki := s.ki + 1 }
  | copyEnd (ho : s.op = .invsched) (hp : s.ph = .copy) (hk : s.nk.last ≤ s.ki.val) :
      CoreEffect s { (s.putSchedWord s.ki s.t[s.ki]).finish with
        ki := 0, ph := .compute, tag := .inv }

theorem expandWith_effect {s : State} (ho : s.op = .expand) :
    CoreEffect s (s.expandWith s.expandWord) := by
  unfold State.expandWith
  split
  next hk => exact .expandNext ho hk
  next hk => exact .expandEnd ho (Nat.not_lt.mp hk)

theorem invschedStep_effect {s : State} (ho : s.op = .invsched) : CoreEffect s s.invschedStep := by
  unfold State.invschedStep
  split
  next hp =>
    unfold State.invschedCompute
    split
    next hk => exact .computeNext ho hp hk
    next hk => exact .computeEnd ho hp (Nat.not_lt.mp hk)
  next hp =>
    unfold State.invschedCopy
    split
    next hk => exact .copyNext ho hp hk
    next hk => exact .copyEnd ho hp (Nat.not_lt.mp hk)

theorem coreStep_effect {s t : State} (h : coreStep s = .next t) : CoreEffect s t := by
  rcases coreStep_cases h with ⟨ho, rfl⟩ | ⟨ho, rfl⟩ | ⟨ho, h0, rfl⟩ | ⟨ho, h0, hr, rfl⟩
    | ⟨ho, hr, rfl⟩ | ⟨ho, rfl⟩
  · exact .hold ho
  · exact expandWith_effect ho
  · exact .cipherInit ho h0
  · exact .cipherFull ho h0 hr
  · exact .cipherLast ho hr
  · exact invschedStep_effect ho

/-- A turn of the CORE is deterministic: its effect is its outcome. -/
theorem CoreEffect.coreStep_eq {s t : State} (h : CoreEffect s t) : coreStep s = .next t := by
  cases h with
  | hold ho => exact coreStep_idle ho
  | expandNext ho hk => simp [coreStep_expand ho, State.expandWith, hk]
  | expandEnd ho hk => simp [coreStep_expand ho, State.expandWith, Nat.not_lt.mpr hk]
  | cipherInit ho hr => exact coreStep_cipher_init ho hr
  | cipherFull ho h0 hr => exact coreStep_cipher_full ho h0 hr
  | cipherLast ho hr => exact coreStep_cipher_last ho hr
  | computeNext ho hp hk =>
    simp [coreStep_invsched ho, State.invschedStep, hp, State.invschedCompute, hk]
  | computeEnd ho hp hk =>
    simp [coreStep_invsched ho, State.invschedStep, hp, State.invschedCompute, Nat.not_lt.mpr hk]
  | copyNext ho hp hk => simp [coreStep_invsched ho, State.invschedStep, hp, State.invschedCopy, hk]
  | copyEnd ho hp hk =>
    simp [coreStep_invsched ho, State.invschedStep, hp, State.invschedCopy, Nat.not_lt.mpr hk]

/-! ### A host cycle -/

/-- What a host cycle with pins p makes of s: a reset; a read or no operation; a refusal; or a write that
the core takes, of a word of S or KEY or of a command. -/
inductive HostEffect (s : State) (p : Pins) : State → Prop
  | reset (hr : p.rst = true) : HostEffect s p (s.beginCycle p).applyReset
  | drive (hr : p.rst = false) (v : Word) : HostEffect s p ((s.beginCycle p).driveRdata v)
  | refuse (hr : p.rst = false) (c : Cause) : HostEffect s p ((s.beginCycle p).raise c)
  | writeBlock (hb : s.busy = false) (c : Fin 4) (hw : p.Writes (0x04 + c.val)) :
      HostEffect s p ((s.beginCycle p).putBlockWord c p.wdata)
  | writeKey (hb : s.busy = false) (i : Fin 8) (hw : p.Writes (0x08 + i.val)) :
      HostEffect s p ((s.beginCycle p).putKeyWord i p.wdata)
  | nop (hb : s.busy = false) (hw : p.Writes 0x00) : HostEffect s p (s.beginCycle p)
  | acceptExpand (hb : s.busy = false) (hw : p.Writes 0x00) (k : KeySize) :
      HostEffect s p ((s.beginCycle p).acceptExpand k)
  | acceptCipher (hb : s.busy = false) (hw : p.Writes 0x00) (d : Dir) (ht : s.tag = d.kind) :
      HostEffect s p ((s.beginCycle p).acceptCipher d)
  | acceptInvsched (hb : s.busy = false) (hw : p.Writes 0x00) (ht : s.tag = .fwd) :
      HostEffect s p (s.beginCycle p).acceptInvsched

theorem execWr_effect {p : Pins} {s t : State} (hr : p.rst = false) (hs : p.sel = true)
    (hw : p.we = true) (h : execWr p.addr p.wdata (s.beginCycle p) = .next t) :
    HostEffect s p t := by
  rcases execWr_cases h with ⟨c, rfl⟩ | ⟨hidle, hc⟩
  · exact .refuse hr c
  have hb : s.busy = false := hidle
  rcases hc with ⟨c, ha, rfl⟩ | ⟨i, ha, rfl⟩ | ⟨ha, hc⟩
  · exact .writeBlock hb c ⟨hr, hs, hw, ha⟩
  · exact .writeKey hb i ⟨hr, hs, hw, ha⟩
  · have hw0 : p.Writes 0x00 := ⟨hr, hs, hw, ha⟩
    rcases hc with rfl | ⟨k, rfl⟩ | ⟨ht, rfl⟩ | ⟨ht, rfl⟩ | ⟨ht, rfl⟩
    · exact .nop hb hw0
    · exact .acceptExpand hb hw0 k
    · exact .acceptCipher hb hw0 .forward ht
    · exact .acceptCipher hb hw0 .inverse ht
    · exact .acceptInvsched hb hw0 ht

theorem hostCycle_effect {p : Pins} {s t : State} (h : hostCycle p s = .next t) :
    HostEffect s p t := by
  rcases hostCycle_cases h with ⟨hr, rfl⟩ | ⟨hr, ⟨-, rfl⟩ | ⟨-, -, rfl⟩ | ⟨hs, hw, ht⟩⟩
  · exact .reset hr
  · exact .drive hr 0
  · exact .drive hr _
  · exact execWr_effect hr hs hw ht

/-- Every way a step can end. -/
theorem step_effect {s t : State} (h : step s = .next t) :
    (nextIsCore s ∧ CoreEffect s.takeEvent t) ∨ ∃ p, nextPins s p ∧ HostEffect s.takeEvent p t := by
  obtain hc | ⟨p, hp⟩ := nextIsCore_or_nextPins s
  · exact .inl ⟨hc, coreStep_effect (step_of_nextIsCore hc ▸ h)⟩
  · exact .inr ⟨p, hp, hostCycle_effect (step_of_nextPins hp ▸ h)⟩

end Sys2Proof.Machine

/-! Who writes what (10_state.md R21 to R29): the registers an agent can change, and then over every step. -/

namespace Sys2Proof.Machine

theorem eq_of_getElem_set_ne {n : Nat} {v : Vector Word n} {i j : Fin n} {x : Word}
    (hne : (v.set i.val x i.isLt)[j] ≠ v[j]) : j = i :=
  of_not_not fun hj => hne (Vector.getElem_set_ne i.isLt j.isLt fun e => hj (Fin.ext e.symm))

/-! ### By a turn of the CORE -/

namespace CoreEffect
variable {s t : State} (h : CoreEffect s t)
include h

theorem key_eq : t.key = s.key := by cases h <;> rfl

theorem nk_eq : t.nk = s.nk := by cases h <;> rfl

theorem dir_eq : t.dir = s.dir := by cases h <;> rfl

theorem blk_rc_eq (hne : s.op ≠ .cipher) : t.blk = s.blk ∧ t.rc = s.rc := by
  cases h
  case cipherInit ho _ => exact absurd ho hne
  case cipherFull ho _ _ => exact absurd ho hne
  case cipherLast ho _ => exact absurd ho hne
  all_goals exact ⟨rfl, rfl⟩

theorem phase_of_sched_ne {j : Fin 60} (hne : t.w[j] ≠ s.w[j]) :
    j = s.ki ∧ (s.op = .expand ∨ (s.op = .invsched ∧ s.ph = .copy)) := by
  cases h
  case expandNext ho _ => exact ⟨eq_of_getElem_set_ne hne, .inl ho⟩
  case expandEnd ho _ => exact ⟨eq_of_getElem_set_ne hne, .inl ho⟩
  case copyNext ho hp _ => exact ⟨eq_of_getElem_set_ne hne, .inr ⟨ho, hp⟩⟩
  case copyEnd ho hp _ => exact ⟨eq_of_getElem_set_ne hne, .inr ⟨ho, hp⟩⟩
  all_goals exact absurd rfl hne

theorem phase_of_scratch_ne {j : Fin 60} (hne : t.t[j] ≠ s.t[j]) :
    j = s.ki ∧ s.op = .invsched ∧ s.ph = .compute := by
  cases h
  case computeNext ho hp _ => exact ⟨eq_of_getElem_set_ne hne, ho, hp⟩
  case computeEnd ho hp _ => exact ⟨eq_of_getElem_set_ne hne, ho, hp⟩
  all_goals exact absurd rfl hne

theorem tag_of_ne (hne : t.tag ≠ s.tag) :
    (s.op = .expand ∧ t.tag = .fwd ∧ t.op = .idle)
    ∨ (s.op = .invsched ∧ t.tag = .inv ∧ t.op = .idle) := by
  cases h
  case expandEnd ho _ => exact .inl ⟨ho, rfl, rfl⟩
  case copyEnd ho _ _ => exact .inr ⟨ho, rfl, rfl⟩
  all_goals exact absurd rfl hne

theorem ends_of_done_ne (hne : t.done ≠ s.done) :
    t.done = true ∧ s.op ≠ .idle ∧ t.op = .idle ∧ t.busy = false := by
  cases h
  case expandEnd ho _ => exact ⟨rfl, by simp [ho], rfl, rfl⟩
  case cipherLast ho _ => exact ⟨rfl, by simp [ho], rfl, rfl⟩
  case copyEnd ho _ _ => exact ⟨rfl, by simp [ho], rfl, rfl⟩
  all_goals exact absurd rfl hne

end CoreEffect

/-! ### By a host cycle -/

namespace HostEffect
variable {s t : State} {p : Pins} (h : HostEffect s p t)
include h

theorem writes_of_key_ne {i : Fin 8} (hne : t.key[i] ≠ s.key[i]) :
    p.rst = true ∨ (s.busy = false ∧ p.Writes (0x08 + i.val)) := by
  cases h
  case reset hr => exact .inl hr
  case writeKey hb k hw =>
    obtain rfl : i = k := eq_of_getElem_set_ne hne
    exact .inr ⟨hb, hw⟩
  all_goals exact absurd rfl hne

theorem writes_of_blk_ne {c : Fin 4} (hne : t.blk[c] ≠ s.blk[c]) :
    p.rst = true ∨ (s.busy = false ∧ p.Writes (0x04 + c.val)) := by
  cases h
  case reset hr => exact .inl hr
  case writeBlock hb k hw =>
    obtain rfl : c = k := eq_of_getElem_set_ne hne
    exact .inr ⟨hb, hw⟩
  all_goals exact absurd rfl hne

theorem rst_or_core_registers_eq : p.rst = true ∨ (t.w = s.w ∧ t.t = s.t ∧ t.rc = s.rc) := by
  cases h
  case reset hr => exact .inl hr
  all_goals exact .inr ⟨rfl, rfl, rfl⟩

theorem accepts_of_nk_ne (hne : t.nk ≠ s.nk) :
    p.rst = true ∨ (s.busy = false ∧ p.Writes 0x00 ∧ t.op = .expand) := by
  cases h
  case reset hr => exact .inl hr
  case acceptExpand hb hw _ => exact .inr ⟨hb, hw, rfl⟩
  all_goals exact absurd rfl hne

theorem accepts_of_dir_ne (hne : t.dir ≠ s.dir) :
    p.rst = true ∨ (s.busy = false ∧ p.Writes 0x00 ∧ t.op = .cipher) := by
  cases h
  case reset hr => exact .inl hr
  case acceptCipher hb hw _ _ => exact .inr ⟨hb, hw, rfl⟩
  all_goals exact absurd rfl hne

theorem accepts_of_tag_ne (hne : t.tag ≠ s.tag) :
    p.rst = true
    ∨ (s.busy = false ∧ p.Writes 0x00 ∧ t.tag = .none ∧ (t.op = .expand ∨ t.op = .invsched)) := by
  cases h
  case reset hr => exact .inl hr
  case acceptExpand hb hw _ => exact .inr ⟨hb, hw, rfl, .inl rfl⟩
  case acceptInvsched hb hw _ => exact .inr ⟨hb, hw, rfl, .inr rfl⟩
  all_goals exact absurd rfl hne

theorem accepts_of_done_ne (hne : t.done ≠ s.done) :
    p.rst = true
    ∨ (t.done = false ∧ s.busy = false ∧ p.Writes 0x00 ∧ t.op ≠ .idle ∧ t.busy = true) := by
  cases h
  case reset hr => exact .inl hr
  case acceptExpand hb hw _ => exact .inr ⟨rfl, hb, hw, by simp, rfl⟩
  case acceptCipher hb hw _ _ => exact .inr ⟨rfl, hb, hw, by simp, rfl⟩
  case acceptInvsched hb hw _ => exact .inr ⟨rfl, hb, hw, by simp, rfl⟩
  all_goals exact absurd rfl hne

end HostEffect

end Sys2Proof.Machine

namespace Sys2Proof.Proofs

open Sys2Proof.Machine

/-- Settles O29, from what each agent can change of KEY and S. -/
theorem keyAndBlockWriters : Obligations.KeyAndBlockWriters := by
  intro s t h
  obtain ⟨hc, he⟩ | ⟨p, hp, he⟩ := step_effect h
  · exact ⟨fun i hne => absurd (congrArg (·[i]) he.key_eq) hne,
      fun c hne => .inr (.inr ⟨hc, of_not_not fun ho => hne (congrArg (·[c]) (he.blk_rc_eq ho).1)⟩)⟩
  · refine ⟨fun i hne => ?_, fun c hne => ?_⟩
    · exact (he.writes_of_key_ne hne).imp (nextIsReset_of_nextPins hp)
        fun ⟨hb, hw⟩ => ⟨hb, nextIsWrite_of_nextPins hp hw⟩
    · exact (he.writes_of_blk_ne hne).imp (nextIsReset_of_nextPins hp)
        fun ⟨hb, hw⟩ => .inl ⟨hb, nextIsWrite_of_nextPins hp hw⟩

/-- Settles O30, from what each agent can change of W and T. -/
theorem scheduleMemoryWriters : Obligations.ScheduleMemoryWriters := by
  intro s t h
  obtain ⟨hc, he⟩ | ⟨p, hp, he⟩ := step_effect h
  · exact ⟨fun j hne => .inr ⟨hc, he.phase_of_sched_ne hne⟩,
      fun j hne => .inr ⟨hc, he.phase_of_scratch_ne hne⟩⟩
  · obtain hr | ⟨hw, hx, -⟩ := he.rst_or_core_registers_eq
    · have hreset := nextIsReset_of_nextPins hp hr
      exact ⟨fun _ _ => .inl hreset, fun _ _ => .inl hreset⟩
    · exact ⟨fun j hne => absurd (congrArg (·[j]) hw) hne,
        fun j hne => absurd (congrArg (·[j]) hx) hne⟩

/-- Settles O31, from what each agent can change of NK, RC, TAG and DIR. -/
theorem controlRegisterWriters : Obligations.ControlRegisterWriters := by
  intro s t h hnr
  obtain ⟨hc, he⟩ | ⟨p, hp, he⟩ := step_effect h
  · refine ⟨fun hne => absurd he.nk_eq hne,
      fun hne => ⟨hc, of_not_not fun ho => hne (he.blk_rc_eq ho).2⟩, fun hne => ?_,
      fun hne => absurd he.dir_eq hne⟩
    exact .inr ((he.tag_of_ne hne).imp (⟨hc, ·⟩) (⟨hc, ·⟩))
  · have hr : ¬p.rst = true := fun hr => hnr (nextIsReset_of_nextPins hp hr)
    have ⟨_, _, hrc⟩ := he.rst_or_core_registers_eq.resolve_left hr
    refine ⟨fun hne => ?_, fun hne => absurd hrc hne, fun hne => ?_, fun hne => ?_⟩
    · obtain ⟨hb, hw, ho⟩ := (he.accepts_of_nk_ne hne).resolve_left hr
      exact ⟨hb, nextIsWrite_of_nextPins hp hw, ho⟩
    · obtain ⟨hb, hw, ht, ho⟩ := (he.accepts_of_tag_ne hne).resolve_left hr
      exact .inl ⟨hb, nextIsWrite_of_nextPins hp hw, ht, ho⟩
    · obtain ⟨hb, hw, ho⟩ := (he.accepts_of_dir_ne hne).resolve_left hr
      exact ⟨hb, nextIsWrite_of_nextPins hp hw, ho⟩

/-- Settles O32, from the effects in which an agent changes DONE. -/
theorem doneFollowsOperations : Obligations.DoneFollowsOperations := by
  intro s t h hnr
  obtain ⟨hc, he⟩ | ⟨p, hp, he⟩ := step_effect h
  · have hends (hne : t.done ≠ s.done) := he.ends_of_done_ne hne
    refine ⟨fun h0 h1 => ⟨hc, (hends (by simp [h0, h1])).2⟩, fun h1 h0 => ?_⟩
    simp [(hends (by simp [h0, h1])).1] at h0
  · have haccepts (hne : t.done ≠ s.done) := (he.accepts_of_done_ne hne).resolve_left
      fun hr => hnr (nextIsReset_of_nextPins hp hr)
    refine ⟨fun h0 h1 => ?_, fun h1 h0 => ?_⟩
    · simp [(haccepts (by simp [h0, h1])).1] at h1
    · obtain ⟨-, hb, hw, ho, hb'⟩ := haccepts (by simp [h0, h1])
      exact ⟨hb, nextIsWrite_of_nextPins hp hw, ho, hb'⟩

end Sys2Proof.Proofs

/-! Noninterference (10_state.md R21, R24): a part of the state that no host cycle lets reach the rest. -/

namespace Sys2Proof.Machine

/-- Both outcomes are next states, and R relates them. -/
def RelatedNext (R : State → State → Prop) (x y : Result) : Prop :=
  ∃ t u, x = .next t ∧ y = .next u ∧ R t u

/-- R does not see what a host cycle decides by (BUSY and TAG), and every update a host cycle makes keeps
it. -/
structure HostRespects (R : State → State → Prop) : Prop where
  busy {s u : State} : R s u → u.busy = s.busy
  tag {s u : State} : R s u → u.tag = s.tag
  beginCycle {s u : State} (p : Pins) : R s u → R (s.beginCycle p) (u.beginCycle p)
  applyReset {s u : State} : R s u → R s.applyReset u.applyReset
  driveRdata {s u : State} (v : Word) : R s u → R (s.driveRdata v) (u.driveRdata v)
  read {s u : State} (a : Addr) :
    R s u → R (s.driveRdata (s.readPort a)) (u.driveRdata (u.readPort a))
  raise {s u : State} (c : Cause) : R s u → R (s.raise c) (u.raise c)
  putBlockWord {s u : State} (c : Fin 4) (v : Word) :
    R s u → R (s.putBlockWord c v) (u.putBlockWord c v)
  putKeyWord {s u : State} (i : Fin 8) (v : Word) : R s u → R (s.putKeyWord i v) (u.putKeyWord i v)
  acceptExpand {s u : State} (k : KeySize) : R s u → R (s.acceptExpand k) (u.acceptExpand k)
  acceptCipher {s u : State} (d : Dir) : R s u → R (s.acceptCipher d) (u.acceptCipher d)
  acceptInvsched {s u : State} : R s u → R s.acceptInvsched u.acceptInvsched

namespace HostRespects
variable {R : State → State → Prop} (hR : HostRespects R) {s u : State} (h : R s u)
include hR h

theorem refuse (c : Cause) : RelatedNext R (refuse c s) (refuse c u) :=
  ⟨_, _, rfl, rfl, hR.raise c h⟩

theorem unlessBusy {f : State → Result} (hf : RelatedNext R (f s) (f u)) :
    RelatedNext R (unlessBusy s f) (unlessBusy u f) := by
  unfold Machine.unlessBusy
  rw [hR.busy h]
  split
  · exact hR.refuse h _
  · exact hf

theorem requireTag (k : Tag) {f : State → State} (hf : R (f s) (f u)) :
    RelatedNext R (requireTag k f s) (requireTag k f u) := by
  unfold Machine.requireTag
  rw [hR.tag h]
  split
  · exact ⟨_, _, rfl, rfl, hf⟩
  · exact hR.refuse h _

theorem execExpand (ks : BitVec 2) : RelatedNext R (execExpand ks s) (execExpand ks u) := by
  refine hR.unlessBusy h ?_
  cases KeySize.ofCode ks with
  | none => exact hR.refuse h _
  | some k => exact ⟨_, _, rfl, rfl, hR.acceptExpand k h⟩

theorem execCommand (c : Command) : RelatedNext R (execCommand c s) (execCommand c u) := by
  cases c with
  | nop => exact hR.unlessBusy h ⟨s, u, rfl, rfl, h⟩
  | expand ks => exact hR.execExpand h ks
  | encrypt => exact hR.unlessBusy h (hR.requireTag h _ (hR.acceptCipher _ h))
  | decrypt => exact hR.unlessBusy h (hR.requireTag h _ (hR.acceptCipher _ h))
  | invsched => exact hR.unlessBusy h (hR.requireTag h _ (hR.acceptInvsched h))

theorem dispatch (v : Word) : RelatedNext R (dispatch v s) (dispatch v u) := by
  unfold Machine.dispatch
  split
  · exact hR.refuse h _
  · exact hR.execCommand h _

theorem execWr (a : Addr) (v : Word) : RelatedNext R (execWr a v s) (execWr a v u) := by
  refine hR.unlessBusy h ?_
  cases target a with
  | ctrl => exact hR.dispatch h v
  | status => exact hR.refuse h _
  | block c => exact ⟨_, _, rfl, rfl, hR.putBlockWord c v h⟩
  | key i => exact ⟨_, _, rfl, rfl, hR.putKeyWord i v h⟩
  | sched i => exact hR.refuse h _
  | reserved => exact hR.refuse h _

theorem hostCycle (p : Pins) : RelatedNext R (hostCycle p s) (hostCycle p u) := by
  have hp := hR.beginCycle p h
  unfold Machine.hostCycle
  rw [decodePort_pins]
  split
  · exact ⟨_, _, rfl, rfl, hR.applyReset hp⟩
  · split
    · split
      · exact hR.execWr hp _ _
      · exact ⟨_, _, rfl, rfl, hR.read p.addr hp⟩
    · exact ⟨_, _, rfl, rfl, hR.driveRdata 0 hp⟩

end HostRespects

/-- From two states with the same event next, a step keeps a relation that host cycles respect and that
the turn of the CORE keeps. -/
theorem step_related {R : State → State → Prop} (hR : HostRespects R) {s t u : State}
    (hp : u.pending = s.pending) (hb : u.busy = s.busy) (h : R s.takeEvent u.takeEvent)
    (hcore : CoreEffect s.takeEvent t → ∃ u', CoreEffect u.takeEvent u' ∧ R t u')
    (ht : step s = .next t) : ∃ u', step u = .next u' ∧ R t u' := by
  obtain hc | ⟨p, hn⟩ := nextIsCore_or_nextPins s
  · have hc' : nextIsCore u := by simpa only [nextIsCore, hp, hb] using hc
    rw [step_of_nextIsCore hc] at ht
    obtain ⟨u', hu, hr⟩ := hcore (coreStep_effect ht)
    exact ⟨u', (step_of_nextIsCore hc').trans hu.coreStep_eq, hr⟩
  · have hn' : nextPins u p := by simpa only [nextPins, nextIsHost, hp, hb] using hn
    rw [step_of_nextPins hn] at ht
    obtain ⟨t', u', ht', hu, hr⟩ := hR.hostCycle h p
    obtain rfl := Host.Outcome.next.inj (ht'.symm.trans ht)
    exact ⟨u', (step_of_nextPins hn').trans hu, hr⟩

/-! ### KEY (R21) -/

/-- u is s but for KEY and rdata. -/
def KeyDiffers (s u : State) : Prop := ∃ k r, u = { s with key := k, rdata := r }

theorem hostRespects_keyDiffers : HostRespects KeyDiffers where
  busy := by rintro s _ ⟨k, r, rfl⟩; rfl
  tag := by rintro s _ ⟨k, r, rfl⟩; rfl
  beginCycle := by rintro s _ p ⟨k, r, rfl⟩; exact ⟨k, _, rfl⟩
  applyReset := by rintro s _ ⟨k, r, rfl⟩; exact ⟨_, _, rfl⟩
  driveRdata := by rintro s _ v ⟨k, r, rfl⟩; exact ⟨k, v, rfl⟩
  read := by rintro s _ a ⟨k, r, rfl⟩; exact ⟨k, _, rfl⟩
  raise := by rintro s _ c ⟨k, r, rfl⟩; exact ⟨k, r, rfl⟩
  putBlockWord := by rintro s _ c v ⟨k, r, rfl⟩; exact ⟨k, r, rfl⟩
  putKeyWord := by rintro s _ i v ⟨k, r, rfl⟩; exact ⟨_, r, rfl⟩
  acceptExpand := by rintro s _ n ⟨k, r, rfl⟩; exact ⟨k, r, rfl⟩
  acceptCipher := by rintro s _ d ⟨k, r, rfl⟩; exact ⟨k, r, rfl⟩
  acceptInvsched := by rintro s _ ⟨k, r, rfl⟩; exact ⟨k, r, rfl⟩

/-- Of the micro-steps only EXPAND's reads KEY. -/
theorem CoreEffect.with_key {s t : State} (h : CoreEffect s t) (hne : s.op ≠ .expand)
    (k : Vector Word 8) : CoreEffect { s with key := k } { t with key := k } := by
  cases h with
  | hold ho => exact .hold ho
  | expandNext ho hk => exact absurd ho hne
  | expandEnd ho hk => exact absurd ho hne
  | cipherInit ho hr => exact .cipherInit ho hr
  | cipherFull ho h0 hr => exact .cipherFull ho h0 hr
  | cipherLast ho hr => exact .cipherLast ho hr
  | computeNext ho hp hk => exact .computeNext ho hp hk
  | computeEnd ho hp hk => exact .computeEnd ho hp hk
  | copyNext ho hp hk => exact .copyNext ho hp hk
  | copyEnd ho hp hk => exact .copyEnd ho hp hk

/-! ### T (R24) -/

/-- u is s but for words of T that no INVSCHED in progress has written. -/
def ScratchDiffers (s u : State) : Prop := ∃ x, u = { s with t := x } ∧ scratchAgrees s x

theorem scratchAgrees_of_op_ne {s : State} (ho : s.op ≠ .invsched) (x : Vector Word 60) :
    scratchAgrees s x := fun h => absurd h ho

theorem scratchAgrees_of_compute {s : State} {x : Vector Word 60} (hp : s.ph = .compute)
    (h : ∀ j : Fin 60, j.val < s.ki.val → x[j] = s.t[j]) : scratchAgrees s x :=
  fun _ => ⟨fun _ => h, fun hc => nomatch hp.symm.trans hc⟩

theorem scratchAgrees_of_copy {s : State} {x : Vector Word 60} (hp : s.ph = .copy)
    (h : ∀ j : Fin 60, j.val ≤ s.nk.last → x[j] = s.t[j]) : scratchAgrees s x :=
  fun _ => ⟨fun hc => (nomatch hp.symm.trans hc), fun _ => h⟩

theorem hostRespects_scratchDiffers : HostRespects ScratchDiffers where
  busy := by rintro s _ ⟨x, rfl, -⟩; rfl
  tag := by rintro s _ ⟨x, rfl, -⟩; rfl
  beginCycle := by rintro s _ p ⟨x, rfl, hx⟩; exact ⟨x, rfl, hx⟩
  applyReset := by rintro s _ ⟨x, rfl, -⟩; exact ⟨_, rfl, scratchAgrees_of_op_ne (by simp) _⟩
  driveRdata := by rintro s _ v ⟨x, rfl, hx⟩; exact ⟨x, rfl, hx⟩
  read := by rintro s _ a ⟨x, rfl, hx⟩; exact ⟨x, rfl, hx⟩
  raise := by rintro s _ c ⟨x, rfl, hx⟩; exact ⟨x, rfl, hx⟩
  putBlockWord := by rintro s _ c v ⟨x, rfl, hx⟩; exact ⟨x, rfl, hx⟩
  putKeyWord := by rintro s _ i v ⟨x, rfl, hx⟩; exact ⟨x, rfl, hx⟩
  acceptExpand := by
    rintro s _ n ⟨x, rfl, -⟩
    exact ⟨x, rfl, scratchAgrees_of_op_ne (by simp) x⟩
  acceptCipher := by
    rintro s _ d ⟨x, rfl, -⟩
    exact ⟨x, rfl, scratchAgrees_of_op_ne (by simp) x⟩
  acceptInvsched := by
    rintro s _ ⟨x, rfl, -⟩
    exact ⟨x, rfl, scratchAgrees_of_compute rfl fun j hj => absurd hj (Nat.not_lt_zero j.val)⟩

theorem KeySize.last_lt (k : KeySize) : k.last < 60 := by cases k <;> decide

theorem State.ki_add_one {s : State} (hk : s.ki.val < s.nk.last) :
    (s.ki + 1).val = s.ki.val + 1 :=
  Fin.val_add_one_of_lt' (by have := s.nk.last_lt; omega)

theorem getElem_set_congr {n : Nat} {u v : Vector Word n} {i j : Fin n} (x : Word)
    (h : j ≠ i → u[j] = v[j]) : (u.set i.val x i.isLt)[j] = (v.set i.val x i.isLt)[j] := by
  obtain rfl | hne := eq_or_ne j i
  · simp
  · simpa [Vector.getElem_set, Fin.val_ne_of_ne hne.symm] using h hne

/-- The compute phase overwrites word KI of both contents of T with the same word; the copy phase reads
a word up to LAST, where they agree; no other micro-step uses T. -/
theorem CoreEffect.with_scratch {s t : State} (h : CoreEffect s t) (hki : s.ki.val ≤ s.nk.last)
    {x : Vector Word 60} (hx : scratchAgrees s x) :
    ∃ y, CoreEffect { s with t := x } { t with t := y } ∧ scratchAgrees t y := by
  cases h with
  | hold ho => exact ⟨x, .hold ho, hx⟩
  | expandNext ho hk => exact ⟨x, .expandNext ho hk, scratchAgrees_of_op_ne (by simp [ho]) x⟩
  | expandEnd ho hk => exact ⟨x, .expandEnd ho hk, scratchAgrees_of_op_ne (by simp) x⟩
  | cipherInit ho hr => exact ⟨x, .cipherInit ho hr, scratchAgrees_of_op_ne (by simp [ho]) x⟩
  | cipherFull ho h0 hr => exact ⟨x, .cipherFull ho h0 hr, scratchAgrees_of_op_ne (by simp [ho]) x⟩
  | cipherLast ho hr => exact ⟨x, .cipherLast ho hr, scratchAgrees_of_op_ne (by simp) x⟩
  | computeNext ho hp hk =>
    refine ⟨_, .computeNext ho hp hk, scratchAgrees_of_compute hp
      fun j (hj : j.val < (s.ki + 1).val) => getElem_set_congr (i := s.ki) _ fun hne => ?_⟩
    rw [State.ki_add_one hk] at hj
    have hne' := Fin.val_ne_of_ne hne
    exact (hx ho).1 hp j (Fin.lt_def.mpr (by omega))
  | computeEnd ho hp hk =>
    refine ⟨_, .computeEnd ho hp hk, scratchAgrees_of_copy rfl
      fun j (hj : j.val ≤ s.nk.last) => getElem_set_congr (i := s.ki) _ fun hne => ?_⟩
    have hne' := Fin.val_ne_of_ne hne
    exact (hx ho).1 hp j (Fin.lt_def.mpr (by omega))
  | copyNext ho hp hk =>
    have hword : x[s.ki] = s.t[s.ki] := (hx ho).2 hp s.ki hki
    refine ⟨x, ?_, scratchAgrees_of_copy hp ((hx ho).2 hp)⟩
    rw [← hword]
    exact .copyNext ho hp hk
  | copyEnd ho hp hk =>
    have hword : x[s.ki] = s.t[s.ki] := (hx ho).2 hp s.ki hki
    refine ⟨x, ?_, scratchAgrees_of_op_ne (by simp) x⟩
    rw [← hword]
    exact .copyEnd ho hp hk

end Sys2Proof.Machine

namespace Sys2Proof.Proofs

open Sys2Proof.Machine

/-- Settles O37: host cycles respect `KeyDiffers`, and no turn of the CORE but EXPAND's reads KEY. -/
theorem keyMattersOnlyToExpand : Obligations.KeyMattersOnlyToExpand := by
  intro s t k ho h
  obtain ⟨_, hu, k', r, rfl⟩ := step_related hostRespects_keyDiffers (s := s)
    (u := { s with key := k }) rfl rfl ⟨k, _, rfl⟩ (fun he => ⟨_, he.with_key ho k, k, _, rfl⟩) h
  exact ⟨k', r, hu⟩

/-- Settles O38: host cycles respect `ScratchDiffers`, and so do turns of the CORE with KI within LAST. -/
theorem scratchContentsNeverMatter : Obligations.ScratchContentsNeverMatter := by
  intro s t x hs hx h
  obtain ⟨_, hu, y, rfl, hy⟩ := step_related hostRespects_scratchDiffers (s := s)
    (u := { s with t := x }) rfl rfl ⟨x, rfl, hx⟩
    (fun he =>
      have ⟨y, hey, hy⟩ := he.with_scratch hs.ki_within hx
      ⟨_, hey, y, rfl, hy⟩) h
  exact ⟨y, hu, hy⟩

end Sys2Proof.Proofs

/-! Soundness (10_state.md R34): every update of an agent keeps the control invariants. -/

namespace Sys2Proof.Machine

theorem KeySize.nr_pos (k : KeySize) : 0 < k.nr := by cases k <;> decide

theorem KeySize.nr_lt (k : KeySize) : k.nr < 15 := by cases k <;> decide

theorem State.rc_add_one {s : State} (hr : s.rc.val < s.nk.nr) : (s.rc + 1).val = s.rc.val + 1 :=
  Fin.val_add_one_of_lt' (by have := s.nk.nr_lt; omega)

namespace ControlSound
variable {s t : State} (h : ControlSound s)
include h

theorem op_of_idle (hb : s.busy = false) : s.op = .idle :=
  of_not_not fun ho => by simp [h.busy_iff_op.mpr ho] at hb

/-! ### The host cycle -/

theorem takeEvent : ControlSound s.takeEvent := { h with }

theorem beginCycle (p : Pins) : ControlSound (s.beginCycle p) := { h with }

theorem driveRdata (v : Word) : ControlSound (s.driveRdata v) := { h with }

theorem putBlockWord (c : Fin 4) (v : Word) : ControlSound (s.putBlockWord c v) := { h with }

theorem putKeyWord (i : Fin 8) (v : Word) : ControlSound (s.putKeyWord i v) := { h with }

theorem raise (c : Cause) : ControlSound (s.raise c) :=
  { h with
    errcode_iff_err := by
      cases he : s.err with
      | false => simp [he]
      | true => simpa [he] using h.errcode_iff_err }

theorem acceptExpand (hb : s.busy = false) (k : KeySize) : ControlSound (s.acceptExpand k) := by
  obtain ⟨hrc, -, hph⟩ := h.idle_cleared hb
  exact {
    busy_iff_op := by simp
    idle_cleared := by simp
    cipher_tag := by simp
    schedule_tag := by simp
    errcode_iff_err := h.errcode_iff_err
    not_busy_and_done := by simp
    rc_within := by simp [hrc]
    ki_within := Nat.zero_le _
    cipher_others := by simp
    schedule_others := fun _ => hrc
    expand_phase := fun _ => hph }

theorem acceptCipher (hb : s.busy = false) {d : Dir} (ht : s.tag = d.kind) :
    ControlSound (s.acceptCipher d) := by
  obtain ⟨-, hki, hph⟩ := h.idle_cleared hb
  exact {
    h with
    busy_iff_op := by simp
    idle_cleared := by simp
    cipher_tag := fun _ => ht
    schedule_tag := by simp
    not_busy_and_done := by simp
    cipher_others := fun _ => ⟨hki, hph⟩
    schedule_others := by simp
    expand_phase := by simp }

theorem acceptInvsched (hb : s.busy = false) : ControlSound s.acceptInvsched := by
  obtain ⟨hrc, -, -⟩ := h.idle_cleared hb
  exact {
    h with
    busy_iff_op := by simp
    idle_cleared := by simp
    cipher_tag := by simp
    schedule_tag := by simp
    not_busy_and_done := by simp
    ki_within := Nat.zero_le _
    cipher_others := by simp
    schedule_others := fun _ => hrc
    expand_phase := by simp }

/-! ### The turn of the CORE -/

/-- The next word of a schedule operation. -/
theorem nextWord (ho : s.op = .expand ∨ s.op = .invsched) (hk : s.ki.val < s.nk.last) :
    ControlSound { s with ki := s.ki + 1 } := by
  have hne : s.op ≠ .idle ∧ s.op ≠ .cipher := by rcases ho with ho | ho <;> simp [ho]
  exact {
    h with
    idle_cleared := fun hb => absurd (h.op_of_idle hb) hne.1
    ki_within := (State.ki_add_one hk).trans_le hk
    cipher_others := fun hc => absurd hc hne.2 }

/-- The next round of a cipher operation. -/
theorem nextRound (ho : s.op = .cipher) {r : Fin 15} (hr : r.val ≤ s.nk.nr) :
    ControlSound { s with rc := r } :=
  { h with
    idle_cleared := fun hb => absurd (h.op_of_idle hb) (by simp [ho])
    rc_within := hr
    schedule_others := by simp [ho] }

theorem copyPhase (ho : s.op = .invsched) : ControlSound { s with ki := 0, ph := .copy } :=
  { h with
    idle_cleared := fun hb => absurd (h.op_of_idle hb) (by simp [ho])
    ki_within := Nat.zero_le _
    cipher_others := by simp [ho]
    expand_phase := by simp [ho] }

end ControlSound

/-- With no operation in progress the control invariants say that the sequencer is cleared. -/
theorem controlSound_of_idle {s : State} (ho : s.op = .idle) (hb : s.busy = false) (hrc : s.rc = 0)
    (hki : s.ki = 0) (hph : s.ph = .compute) (he : s.errcode = none ↔ s.err = false) :
    ControlSound s where
  busy_iff_op := by simp [ho, hb]
  idle_cleared := fun _ => ⟨hrc, hki, hph⟩
  cipher_tag := by simp [ho]
  schedule_tag := by simp [ho]
  errcode_iff_err := he
  not_busy_and_done := by simp [hb]
  rc_within := by simp [hrc]
  ki_within := by simp [hki]
  cipher_others := by simp [ho]
  schedule_others := by simp [ho]
  expand_phase := by simp [ho]

theorem controlSound_applyReset (s : State) : ControlSound s.applyReset :=
  controlSound_of_idle rfl rfl rfl rfl rfl (iff_of_true rfl rfl)

theorem HostEffect.controlSound {s t : State} {p : Pins} (he : HostEffect s p t)
    (h : ControlSound s) : ControlSound t := by
  have hp := h.beginCycle p
  cases he with
  | reset hr => exact controlSound_applyReset _
  | drive hr v => exact hp.driveRdata v
  | refuse hr c => exact hp.raise c
  | writeBlock hb c hw => exact hp.putBlockWord c p.wdata
  | writeKey hb i hw => exact hp.putKeyWord i p.wdata
  | nop hb hw => exact hp
  | acceptExpand hb hw k => exact hp.acceptExpand hb k
  | acceptCipher hb hw d ht => exact hp.acceptCipher hb ht
  | acceptInvsched hb hw ht => exact hp.acceptInvsched hb

theorem CoreEffect.controlSound {s t : State} (he : CoreEffect s t) (h : ControlSound s) :
    ControlSound t := by
  cases he with
  | hold ho => exact h
  | expandNext ho hk => exact { h.nextWord (.inl ho) hk with }
  | expandEnd ho hk =>
    exact controlSound_of_idle rfl rfl (h.schedule_others (.inl ho)) rfl (h.expand_phase ho)
      h.errcode_iff_err
  | cipherInit ho hr => exact { h.nextRound ho (r := 1) s.nk.nr_pos with }
  | cipherFull ho h0 hr => exact { h.nextRound ho ((State.rc_add_one hr).trans_le hr) with }
  | cipherLast ho hr =>
    obtain ⟨hki, hph⟩ := h.cipher_others ho
    exact controlSound_of_idle rfl rfl rfl hki hph h.errcode_iff_err
  | computeNext ho hp hk => exact { h.nextWord (.inr ho) hk with }
  | computeEnd ho hp hk => exact { h.copyPhase ho with }
  | copyNext ho hp hk => exact { h.nextWord (.inr ho) hk with }
  | copyEnd ho hp hk =>
    exact controlSound_of_idle rfl rfl (h.schedule_others (.inr ho)) rfl rfl h.errcode_iff_err

end Sys2Proof.Machine

namespace Sys2Proof.Proofs

open Sys2Proof.Machine

/-- Settles O47, effect by effect. -/
theorem controlSoundIsKept : Obligations.ControlSoundIsKept := by
  intro s t hs h
  obtain ⟨-, he⟩ | ⟨p, -, he⟩ := step_effect h
  · exact he.controlSound hs.takeEvent
  · exact he.controlSound hs.takeEvent

end Sys2Proof.Proofs

/-! The key schedule word by word: what the first n words of a schedule are, and of W and T. -/

namespace Sys2Proof.Machine

/-! ### Prefixes of a schedule -/

theorem schedWord_take {ws : List Word} {n i : Nat} (h : i < n) :
    schedWord (ws.take n) i = schedWord ws i := by
  simp [schedWord, List.getD_eq_getElem?_getD, h]

@[simp] theorem length_expandTo (key : List Word) (nk n : Nat) : (expandTo key nk n).length = n := by
  induction n with
  | zero => rfl
  | succ n ih => simp [expandTo, ih]

theorem take_expandTo (key : List Word) (nk : Nat) {n m : Nat} (h : n ≤ m) :
    (expandTo key nk m).take n = expandTo key nk n := by
  induction m, h using Nat.le_induction with
  | base => simp
  | succ m h ih => rw [expandTo, List.take_append_of_le_length (by simpa using h), ih]

theorem KeySize.last_add_one (k : KeySize) : k.last + 1 = 4 * (k.nr + 1) := rfl

theorem KeySize.nk_pos (k : KeySize) : 0 < k.nk := by cases k <;> decide

theorem State.forwardOf_eq (s : State) (key : List Word) :
    s.forwardOf key = expandTo key s.nk.nk (s.nk.last + 1) := rfl

/-- The source of a word of the inverse schedule is within the forward schedule. -/
theorem invschedWord_take (ws : List Word) (nr j : Nat) :
    invschedWord (ws.take (4 * (nr + 1))) nr j = invschedWord ws nr j := by
  simp only [invschedWord, schedWord_take (show 4 * (nr - j / 4) + j % 4 < 4 * (nr + 1) by omega)]

theorem take_invsched (ws : List Word) {nr n : Nat} (h : n ≤ 4 * (nr + 1)) :
    (invsched ws nr).take n = (List.range n).map (invschedWord ws nr) := by
  rw [invsched, ← List.map_take, List.take_range, Nat.min_eq_left h]

theorem take_succ_invsched (ws : List Word) {nr n : Nat} (h : n < 4 * (nr + 1)) :
    (invsched ws nr).take (n + 1) = (invsched ws nr).take n ++ [invschedWord ws nr n] := by
  rw [take_invsched ws h, take_invsched ws h.le, List.range_succ, List.map_append, List.map_singleton]

/-! ### The first words of W and T -/

theorem toList_take_succ {n : Nat} (v : Vector Word n) (i : Fin n) :
    v.toList.take (i.val + 1) = v.toList.take i.val ++ [v[i]] := by
  simp [List.take_add_one]

theorem toList_set_take_succ {n : Nat} (v : Vector Word n) (i : Fin n) (x : Word) :
    (v.set i.val x i.isLt).toList.take (i.val + 1) = v.toList.take i.val ++ [x] := by
  rw [toList_take_succ, Vector.toList_set, List.take_set_of_le le_rfl]
  simp

namespace State
variable (s : State)

theorem schedTo_putSchedWord_succ (v : Word) :
    (s.putSchedWord s.ki v).schedTo (s.ki.val + 1) = s.schedTo s.ki.val ++ [v] :=
  toList_set_take_succ s.w s.ki v

theorem scratchTo_putScratchWord_succ (v : Word) :
    (s.putScratchWord s.ki v).scratchTo (s.ki.val + 1) = s.scratchTo s.ki.val ++ [v] :=
  toList_set_take_succ s.t s.ki v

/-- The word of an EXPAND micro-step (R144) is the next one of `expand` (R142) after W's first KI words. -/
theorem expandWord_eq : s.expandWord = expandNext s.keyWords s.nk.nk (s.schedTo s.ki.val) := by
  have hlen : (s.schedTo s.ki.val).length = s.ki.val := by simp [schedTo, sched]
  have hnk := s.nk.nk_pos
  by_cases hcopy : s.ki.val < s.nk.nk
  · simp [expandWord, expandSelect, expandNext, hlen, hcopy]
  · have hback : schedWord (s.schedTo s.ki.val) (s.ki.val - s.nk.nk) = s.wordNkBack :=
      schedWord_take (by omega)
    have hprev : schedWord (s.schedTo s.ki.val) (s.ki.val - 1) = s.prevWord :=
      schedWord_take (by omega)
    by_cases hrot : s.ki.val % s.nk.nk = 0
    · simp [expandWord, expandSelect, expandNext, expandTemp, hlen, hcopy, hback, hprev, hrot]
    · by_cases hsub : 6 < s.nk.nk ∧ s.ki.val % s.nk.nk = 4
      · simp [expandWord, expandSelect, expandNext, expandTemp, hlen, hcopy, hback, hprev, hsub]
      · simp [expandWord, expandSelect, expandNext, expandTemp, hlen, hcopy, hback, hprev, hrot, hsub]

theorem take_forwardOf (key : List Word) :
    (s.forwardOf key).take (s.nk.last + 1) = s.forwardOf key :=
  take_expandTo key s.nk.nk le_rfl

theorem take_inverseOf (key : List Word) :
    (s.inverseOf key).take (s.nk.last + 1) = s.inverseOf key :=
  List.take_of_length_le (by simp [inverseOf, invsched, KeySize.last_add_one])

variable {s}

/-! ### One word further -/

theorem expand_progress {n : Nat} (hn : n = s.ki.val + 1) (hk : s.ki.val ≤ s.nk.last)
    (h : s.schedTo s.ki.val = (s.forwardOf s.keyWords).take s.ki.val) :
    (s.putSchedWord s.ki s.expandWord).schedTo n
      = (s.forwardOf s.keyWords).take n := by
  subst hn
  rw [forwardOf_eq, take_expandTo _ _ (Nat.le_succ_of_le hk)] at h
  rw [schedTo_putSchedWord_succ, expandWord_eq, h, forwardOf_eq,
    take_expandTo _ _ (Nat.succ_le_succ hk), expandTo]

theorem compute_progress {key : List Word} {n : Nat} (hn : n = s.ki.val + 1)
    (hk : s.ki.val ≤ s.nk.last)
    (hw : s.schedTo (s.nk.last + 1) = s.forwardOf key)
    (ht : s.scratchTo s.ki.val = (s.inverseOf key).take s.ki.val) :
    (s.putScratchWord s.ki (invschedWord s.sched s.nk.nr s.ki.val)).scratchTo n
      = (s.inverseOf key).take n := by
  subst hn
  have hword : invschedWord s.sched s.nk.nr s.ki.val
      = invschedWord (expand key s.nk.nk) s.nk.nr s.ki.val := by
    rw [← invschedWord_take, ← KeySize.last_add_one]
    exact congrArg (invschedWord · s.nk.nr s.ki.val) hw
  rw [scratchTo_putScratchWord_succ, ht, hword, inverseOf,
    take_succ_invsched _ (Nat.lt_succ_of_le hk)]

theorem copy_progress {key : List Word} {n : Nat} (hn : n = s.ki.val + 1)
    (hk : s.ki.val ≤ s.nk.last)
    (ht : s.scratchTo (s.nk.last + 1) = s.inverseOf key)
    (hw : s.schedTo s.ki.val = (s.inverseOf key).take s.ki.val) :
    (s.putSchedWord s.ki s.t[s.ki]).schedTo n
      = (s.inverseOf key).take n := by
  subst hn
  have hscratch {n : Nat} (hn : n ≤ s.nk.last + 1) : (s.inverseOf key).take n = s.t.toList.take n := by
    rw [← ht, scratchTo, List.take_take, Nat.min_eq_left hn]
  rw [schedTo_putSchedWord_succ, hw, hscratch (Nat.le_succ_of_le hk), hscratch (Nat.succ_le_succ hk),
    toList_take_succ]

end State

end Sys2Proof.Machine

/-! Soundness of the schedule (10_state.md R34 (e)): every update of an agent keeps it. -/

namespace Sys2Proof.Machine

/-! ### What the invariant asks in each phase -/

theorem scheduleSound_of_idle {s : State} (ho : s.op = .idle)
    (hf : s.tag = .fwd → ∃ key, s.schedTo (s.nk.last + 1) = s.forwardOf key)
    (hi : s.tag = .inv → ∃ key, s.schedTo (s.nk.last + 1) = s.inverseOf key) : ScheduleSound s where
  forward := hf
  inverse := hi
  expanding := by simp [ho]
  computing := by simp [ho]
  copying := by simp [ho]

theorem scheduleSound_of_expand {s : State} (ho : s.op = .expand) (ht : s.tag = .none)
    (hw : s.schedTo s.ki.val = (s.forwardOf s.keyWords).take s.ki.val) : ScheduleSound s where
  forward := by simp [ht]
  inverse := by simp [ht]
  expanding := fun _ => hw
  computing := by simp [ho]
  copying := by simp [ho]

theorem scheduleSound_of_compute {s : State} (ho : s.op = .invsched) (hp : s.ph = .compute)
    (ht : s.tag = .none) {key : List Word} (hw : s.schedTo (s.nk.last + 1) = s.forwardOf key)
    (hx : s.scratchTo s.ki.val = (s.inverseOf key).take s.ki.val) : ScheduleSound s where
  forward := by simp [ht]
  inverse := by simp [ht]
  expanding := by simp [ho]
  computing := fun _ _ => ⟨key, hw, hx⟩
  copying := by simp [hp]

theorem scheduleSound_of_copy {s : State} (ho : s.op = .invsched) (hp : s.ph = .copy)
    (ht : s.tag = .none) {key : List Word} (hx : s.scratchTo (s.nk.last + 1) = s.inverseOf key)
    (hw : s.schedTo s.ki.val = (s.inverseOf key).take s.ki.val) : ScheduleSound s where
  forward := by simp [ht]
  inverse := by simp [ht]
  expanding := by simp [ho]
  computing := by simp [hp]
  copying := fun _ _ => ⟨key, hx, hw⟩

/-! ### The host cycle -/

namespace ScheduleSound
variable {s t : State} (h : ScheduleSound s)
include h

theorem takeEvent : ScheduleSound s.takeEvent := { h with }

theorem beginCycle (p : Pins) : ScheduleSound (s.beginCycle p) := { h with }

theorem driveRdata (v : Word) : ScheduleSound (s.driveRdata v) := { h with }

theorem raise (c : Cause) : ScheduleSound (s.raise c) := { h with }

theorem putBlockWord (c : Fin 4) (v : Word) : ScheduleSound (s.putBlockWord c v) := { h with }

theorem putKeyWord (ho : s.op ≠ .expand) (i : Fin 8) (v : Word) : ScheduleSound (s.putKeyWord i v) :=
  { h with expanding := fun he => absurd he ho }

theorem acceptCipher (d : Dir) : ScheduleSound (s.acceptCipher d) :=
  { h with
    expanding := by simp
    computing := by simp
    copying := by simp }

theorem acceptInvsched (ht : s.tag = .fwd) : ScheduleSound s.acceptInvsched := by
  obtain ⟨key, hw⟩ := h.forward ht
  exact scheduleSound_of_compute rfl rfl rfl (key := key) hw (by simp [State.scratchTo])

end ScheduleSound

theorem scheduleSound_acceptExpand (s : State) (k : KeySize) : ScheduleSound (s.acceptExpand k) :=
  scheduleSound_of_expand rfl rfl (by simp [State.schedTo])

theorem scheduleSound_applyReset (s : State) : ScheduleSound s.applyReset :=
  scheduleSound_of_idle rfl (by simp) (by simp)

theorem HostEffect.scheduleSound {s t : State} {p : Pins} (he : HostEffect s p t) (hs : Sound s) :
    ScheduleSound t := by
  have hp := hs.schedule.beginCycle p
  cases he with
  | reset hr => exact scheduleSound_applyReset _
  | drive hr v => exact hp.driveRdata v
  | refuse hr c => exact hp.raise c
  | writeBlock hb c hw => exact hp.putBlockWord c p.wdata
  | writeKey hb i hw => exact hp.putKeyWord (by simp [hs.control.op_of_idle hb]) i p.wdata
  | nop hb hw => exact hp
  | acceptExpand hb hw k => exact scheduleSound_acceptExpand _ k
  | acceptCipher hb hw d ht => exact hp.acceptCipher d
  | acceptInvsched hb hw ht => exact hp.acceptInvsched ht

/-! ### The turn of the CORE -/

theorem CoreEffect.scheduleSound {s t : State} (he : CoreEffect s t) (hs : Sound s) :
    ScheduleSound t := by
  obtain ⟨hc, h⟩ := hs
  have hlast (hk : s.nk.last ≤ s.ki.val) : s.nk.last + 1 = s.ki.val + 1 :=
    congrArg (· + 1) (le_antisymm hk hc.ki_within)
  cases he with
  | hold ho => exact h
  | expandNext ho hk =>
    exact scheduleSound_of_expand ho (hc.schedule_tag (.inl ho))
      (State.expand_progress (State.ki_add_one hk) hc.ki_within (h.expanding ho))
  | expandEnd ho hk =>
    have hw := State.expand_progress (hlast hk) hc.ki_within (h.expanding ho)
    exact scheduleSound_of_idle rfl (fun _ => ⟨s.keyWords, hw.trans (s.take_forwardOf _)⟩) nofun
  | cipherInit ho hr => exact { h with }
  | cipherFull ho h0 hr => exact { h with }
  | cipherLast ho hr => exact scheduleSound_of_idle rfl h.forward h.inverse
  | computeNext ho hp hk =>
    obtain ⟨key, hw, hx⟩ := h.computing ho hp
    exact scheduleSound_of_compute ho hp (hc.schedule_tag (.inr ho)) hw
      (State.compute_progress (State.ki_add_one hk) hc.ki_within hw hx)
  | computeEnd ho hp hk =>
    obtain ⟨key, hw, hx⟩ := h.computing ho hp
    have hx' := State.compute_progress (hlast hk) hc.ki_within hw hx
    exact scheduleSound_of_copy ho rfl (hc.schedule_tag (.inr ho)) (hx'.trans (s.take_inverseOf key))
      (by simp [State.schedTo])
  | copyNext ho hp hk =>
    obtain ⟨key, hx, hw⟩ := h.copying ho hp
    exact scheduleSound_of_copy ho hp (hc.schedule_tag (.inr ho)) hx
      (State.copy_progress (State.ki_add_one hk) hc.ki_within hx hw)
  | copyEnd ho hp hk =>
    obtain ⟨key, hx, hw⟩ := h.copying ho hp
    have hw' := State.copy_progress (hlast hk) hc.ki_within hx hw
    exact scheduleSound_of_idle rfl nofun fun _ => ⟨key, hw'.trans (s.take_inverseOf key)⟩

end Sys2Proof.Machine

namespace Sys2Proof.Proofs

open Sys2Proof.Machine

/-- Settles O46: the reset state is idle, cleared and holds no schedule. -/
theorem resetIsSound : Obligations.ResetIsSound where
  control := controlSound_of_idle rfl rfl rfl rfl rfl (iff_of_true rfl rfl)
  schedule := scheduleSound_of_idle rfl nofun nofun

/-- Settles O48, from the control invariants and the progress of the operations, effect by effect. -/
theorem soundIsKept : Obligations.SoundIsKept := by
  intro s t hs h
  have hs' : Sound s.takeEvent := ⟨hs.control.takeEvent, hs.schedule.takeEvent⟩
  obtain ⟨-, he⟩ | ⟨p, -, he⟩ := step_effect h
  · exact ⟨he.controlSound hs'.control, he.scheduleSound hs'⟩
  · exact ⟨he.controlSound hs'.control, he.scheduleSound hs'⟩

/-- Settles O49, register by register of `State.resetWith`. -/
theorem resetStateValues : Obligations.ResetStateValues := by
  refine ⟨⟨rfl, rfl, rfl, rfl, rfl, rfl, rfl, rfl, rfl, rfl, rfl⟩, fun i => ?_, fun c => ?_, fun i => ?_,
    by decide⟩
  · simp [State.reset]
  · simp [State.reset]
  · simp [State.reset]

end Sys2Proof.Proofs

/-! The byte sequence of a block and of a key (20_memory.md R56, R57). -/

namespace Sys2Proof.Machine

theorem byteAt_zero (j : Nat) : byteAt 0 j = 0 := BitVec.extractLsb'_zero

theorem byteAt_wordOfBytes (bs : List Byte) (i : Nat) {j : Nat} (hj : j < 4) :
    byteAt (wordOfBytes bs i) j = bs.getD (4 * i + j) 0 := by
  unfold wordOfBytes
  match j, hj with
  | 0, _ => exact byteAt_wordOf_zero ..
  | 1, _ => exact byteAt_wordOf_one ..
  | 2, _ => exact byteAt_wordOf_two ..
  | 3, _ => exact byteAt_wordOf_three ..

/-- Byte n of a byte sequence is byte `n mod 4` of its word `n div 4`. -/
theorem byteAt_wordOfBytes_div_mod (bs : List Byte) (n : Nat) :
    byteAt (wordOfBytes bs (n / 4)) (n % 4) = bs.getD n 0 := by
  rw [byteAt_wordOfBytes bs _ (Nat.mod_lt n (by decide)), Nat.div_add_mod]

theorem getD_bytesOfWord (v : Word) {j : Nat} (hj : j < 4) :
    (bytesOfWord v).getD j 0 = byteAt v j := by
  match j, hj with
  | 0, _ => rfl
  | 1, _ => rfl
  | 2, _ => rfl
  | 3, _ => rfl

theorem getD_flatMap_bytesOfWord (ws : List Word) (i : Nat) {j : Nat} (hj : j < 4) :
    (ws.flatMap bytesOfWord).getD (4 * i + j) 0 = byteAt (ws.getD i 0) j := by
  induction ws generalizing i with
  | nil => exact (byteAt_zero j).symm
  | cons v ws ih =>
    cases i with
    | zero =>
      rw [List.flatMap_cons, List.getD_append _ _ _ _ (by simpa [bytesOfWord] using hj)]
      simpa using getD_bytesOfWord v hj
    | succ i =>
      have hlen : (bytesOfWord v).length = 4 := rfl
      rw [List.flatMap_cons, List.getD_append_right _ _ _ _ (by omega), hlen,
        show 4 * (i + 1) + j - 4 = 4 * i + j by omega, ih i]
      rfl

/-! ### Blocks -/

theorem getElem_blockOfBytes (bs : List Byte) {c : Nat} (hc : c < 4) :
    (blockOfBytes bs)[c] = wordOfBytes bs c := by
  match c, hc with
  | 0, _ => rfl
  | 1, _ => rfl
  | 2, _ => rfl
  | 3, _ => rfl

theorem getD_bytesOfBlock (b : Block) {c j : Nat} (hc : c < 4) (hj : j < 4) :
    (bytesOfBlock b).getD (4 * c + j) 0 = byteAt b[c] j := by
  rw [bytesOfBlock, getD_flatMap_bytesOfWord _ _ hj]
  congr 1
  simp [hc]

theorem length_bytesOfBlock (b : Block) : (bytesOfBlock b).length = 16 := by
  simp [bytesOfBlock, bytesOfWord, List.length_flatMap]

theorem bytesOfBlock_blockOfBytes {bs : List Byte} (h : bs.length = 16) :
    bytesOfBlock (blockOfBytes bs) = bs := by
  refine List.ext_getElem ((length_bytesOfBlock _).trans h.symm) fun k hk hk' => ?_
  have hbyte := getD_bytesOfBlock (blockOfBytes bs) (c := k / 4) (j := k % 4) (by omega) (by omega)
  rw [getElem_blockOfBytes, byteAt_wordOfBytes_div_mod, Nat.div_add_mod] at hbyte
  rwa [List.getD_eq_getElem _ _ hk, List.getD_eq_getElem _ _ hk'] at hbyte

theorem blockOfBytes_bytesOfBlock (b : Block) : blockOfBytes (bytesOfBlock b) = b := by
  ext1 c hc
  have hbyte {j : Nat} (hj : j < 4) := getD_bytesOfBlock b hc hj
  have hbyte0 : (bytesOfBlock b).getD (4 * c) 0 = byteAt b[c] 0 := hbyte (j := 0) (by decide)
  rw [getElem_blockOfBytes _ hc, wordOfBytes, hbyte0, hbyte (j := 1) (by decide),
    hbyte (j := 2) (by decide), hbyte (j := 3) (by decide), wordOf_byteAt]

/-! ### Keys -/

theorem length_keyOfBytes (bs : List Byte) : (keyOfBytes bs).length = bs.length / 4 := by
  simp [keyOfBytes]

theorem getD_keyOfBytes (bs : List Byte) {i : Nat} (hi : i < bs.length / 4) :
    (keyOfBytes bs).getD i 0 = wordOfBytes bs i := by
  rw [List.getD_eq_getElem _ _ (by rwa [length_keyOfBytes])]
  simp [keyOfBytes]

end Sys2Proof.Machine

namespace Sys2Proof.Proofs

open Sys2Proof.Machine

/-- Settles O60: byte n of a sequence is byte `n mod 4` of word `n div 4`, and a word is its bytes. -/
theorem byteSequences : Obligations.ByteSequences := by
  refine ⟨fun bs h => ⟨bytesOfBlock_blockOfBytes h, fun k => ?_⟩, blockOfBytes_bytesOfBlock,
    fun bs k h => ⟨?_, fun n hn => ?_⟩⟩
  · rw [getElem_blockOfBytes, byteAt_wordOfBytes_div_mod]
  · rw [length_keyOfBytes, h, Nat.mul_div_cancel_left _ (by decide)]
  · rw [getD_keyOfBytes bs (by omega), byteAt_wordOfBytes_div_mod]

end Sys2Proof.Proofs

/-! The frame of the port's and the commands' rows (45_commands.md R180 to R183): how each can end, as one
named case, and the registers it leaves. -/

namespace Sys2Proof.Machine

theorem exec_toInstr (c : Command) (s : State) : exec c.toInstr s = execCommand c s := by
  cases c <;> rfl

/-- What a command makes of s: a refusal, or its acceptance. -/
inductive CommandEffect (s : State) : Command → State → Prop
  | refuse (c : Command) (x : Cause) : CommandEffect s c (s.raise x)
  | nop : CommandEffect s .nop s
  | expand (k : KeySize) : CommandEffect s (.expand k.code) (s.acceptExpand k)
  | encrypt : CommandEffect s .encrypt (s.acceptCipher .forward)
  | decrypt : CommandEffect s .decrypt (s.acceptCipher .inverse)
  | invsched : CommandEffect s .invsched s.acceptInvsched

theorem execCommand_effect {c : Command} {s t : State} (h : execCommand c s = .next t) :
    CommandEffect s c t := by
  rcases execCommand_cases h with ⟨x, rfl⟩ | ⟨-, ⟨rfl, rfl⟩ | ⟨k, rfl, rfl⟩ | ⟨rfl, -, rfl⟩
    | ⟨rfl, -, rfl⟩ | ⟨rfl, -, rfl⟩⟩
  · exact .refuse c x
  · exact .nop
  · exact .expand k
  · exact .encrypt
  · exact .decrypt
  · exact .invsched

/-- The registers outside the control registers, ERR and ERRCODE are those of s. -/
structure KeepsData (s t : State) : Prop where
  key : t.key = s.key
  blk : t.blk = s.blk
  w : t.w = s.w
  scratch : t.t = s.t
  rc : t.rc = s.rc
  pins : t.pins = s.pins
  rdata : t.rdata = s.rdata
  pending : t.pending = s.pending
  fresh : t.fresh = s.fresh

namespace CommandEffect
variable {s t : State} {c : Command} (h : CommandEffect s c t)
include h

theorem keepsData : KeepsData s t := by
  cases h <;> exact ⟨rfl, rfl, rfl, rfl, rfl, rfl, rfl, rfl, rfl⟩

theorem nk_eq (hc : ∀ ks, c.toInstr ≠ .expand ks) : t.nk = s.nk := by
  cases h
  case expand k => exact absurd rfl (hc k.code)
  all_goals rfl

theorem dir_eq (he : c.toInstr ≠ .encrypt) (hd : c.toInstr ≠ .decrypt) : t.dir = s.dir := by
  cases h
  case encrypt => exact absurd rfl he
  case decrypt => exact absurd rfl hd
  all_goals rfl

theorem ph_eq (hc : c.toInstr ≠ .invsched) : t.ph = s.ph := by
  cases h
  case invsched => exact absurd rfl hc
  all_goals rfl

end CommandEffect

/-- What the write of v to address a makes of s: a refusal, a word of S or KEY stored, or a command. -/
inductive WriteEffect (s : State) (a : Addr) (v : Word) : State → Prop
  | refuse (x : Cause) : WriteEffect s a v (s.raise x)
  | block (c : Fin 4) (ha : a.toNat = 0x04 + c.val) : WriteEffect s a v (s.putBlockWord c v)
  | key (i : Fin 8) (ha : a.toNat = 0x08 + i.val) : WriteEffect s a v (s.putKeyWord i v)
  | command (ha : a.toNat = 0x00) {c : Command} {t : State} (he : CommandEffect s c t) :
      WriteEffect s a v t

theorem execWr_writeEffect {a : Addr} {v : Word} {s t : State} (h : execWr a v s = .next t) :
    WriteEffect s a v t := by
  rcases execWr_cases h with ⟨x, rfl⟩ | ⟨-, ⟨c, ha, rfl⟩ | ⟨i, ha, rfl⟩ | ⟨ha, hc⟩⟩
  · exact .refuse x
  · exact .block c ha
  · exact .key i ha
  · rcases hc with rfl | ⟨k, rfl⟩ | ⟨-, rfl⟩ | ⟨-, rfl⟩ | ⟨-, rfl⟩
    · exact .command ha .nop
    · exact .command ha (.expand k)
    · exact .command ha .encrypt
    · exact .command ha .decrypt
    · exact .command ha .invsched

namespace WriteEffect
variable {s t : State} {a : Addr} {v : Word} (h : WriteEffect s a v t)
include h

theorem blk_eq {c : Fin 4} (hc : a.toNat ≠ 0x04 + c.val) : t.blk[c] = s.blk[c] := by
  cases h
  case block k ha => exact Vector.getElem_set_ne k.isLt c.isLt (by omega)
  case command he => rw [he.keepsData.blk]
  all_goals rfl

theorem key_eq {i : Fin 8} (hi : a.toNat ≠ 0x08 + i.val) : t.key[i] = s.key[i] := by
  cases h
  case key k ha => exact Vector.getElem_set_ne k.isLt i.isLt (by omega)
  case command he => rw [he.keepsData.key]
  all_goals rfl

/-- A write changes S and KEY, and otherwise no more than a command does. -/
theorem keepsData : KeepsData { s with key := t.key, blk := t.blk } t := by
  cases h
  case command he =>
    obtain ⟨-, -, hw, ht, hrc, hpins, hrdata, hpending, hfresh⟩ := he.keepsData
    exact ⟨rfl, rfl, hw, ht, hrc, hpins, hrdata, hpending, hfresh⟩
  all_goals exact ⟨rfl, rfl, rfl, rfl, rfl, rfl, rfl, rfl, rfl⟩

theorem control_eq (ha : a.toNat ≠ 0x00) : t.nk = s.nk ∧ t.op = s.op ∧ t.ki = s.ki ∧ t.ph = s.ph
    ∧ t.dir = s.dir ∧ t.tag = s.tag ∧ t.busy = s.busy ∧ t.done = s.done := by
  cases h
  case command h0 _ _ => exact absurd h0 ha
  all_goals exact ⟨rfl, rfl, rfl, rfl, rfl, rfl, rfl, rfl⟩

end WriteEffect

theorem rdata_only_of_idle_or_rd {i : Instr} {s t : State}
    (hi : (∃ we a, i = .idle we a) ∨ ∃ a, i = .rd a) (h : exec i s = .next t) :
    t = { s with rdata := t.rdata } := by
  obtain ⟨we, a, rfl⟩ | ⟨a, rfl⟩ := hi
  · cases h
    rfl
  · cases h
    rfl

theorem exists_toInstr_eq {i : Instr}
    (h : i = .nop ∨ (∃ ks, i = .expand ks) ∨ i = .encrypt ∨ i = .decrypt ∨ i = .invsched) :
    ∃ c : Command, c.toInstr = i := by
  obtain rfl | ⟨ks, rfl⟩ | rfl | rfl | rfl := h
  · exact ⟨.nop, rfl⟩
  · exact ⟨.expand ks, rfl⟩
  · exact ⟨.encrypt, rfl⟩
  · exact ⟨.decrypt, rfl⟩
  · exact ⟨.invsched, rfl⟩

end Sys2Proof.Machine

namespace Sys2Proof.Proofs

open Sys2Proof.Machine

/-- Settles O26: IDLE and RD by their one update, WR and the commands by the cases they can end in. -/
theorem portAndCommandRowsFrame : Obligations.PortAndCommandRowsFrame := by
  refine ⟨fun i s t hi h => rdata_only_of_idle_or_rd hi h, fun a v s t h => ?_, fun i s t hi h => ?_⟩
  · have he : WriteEffect s a v t := execWr_writeEffect h
    obtain ⟨-, -, hw, ht, hrc, hpins, hrdata, hpending, hfresh⟩ := he.keepsData
    exact ⟨hw, ht, hrc, hpins, hrdata, hpending, hfresh, fun _ => he.blk_eq, fun _ => he.key_eq,
      he.control_eq⟩
  · obtain ⟨c, rfl⟩ := exists_toInstr_eq hi
    have he : CommandEffect s c t := execCommand_effect (exec_toInstr c s ▸ h)
    obtain ⟨hkey, hblk, hw, ht, hrc, hpins, hrdata, hpending, hfresh⟩ := he.keepsData
    exact ⟨hkey, hblk, hw, ht, hrc, hpins, hrdata, hpending, hfresh, he.nk_eq, he.dir_eq, he.ph_eq⟩

end Sys2Proof.Proofs

/-! The row that a host cycle runs, by its pins (20_memory.md R62, 30_encoding.md R81), and what a read and a
cycle while BUSY leave (20_memory.md R54, R60). -/

namespace Sys2Proof.Machine

/-! ### Host cycles without reset -/

theorem hostCycle_of_rst {p : Pins} (hr : p.rst = false) (s : State) :
    hostCycle p s = exec (decodePort p.code p.wdata) (s.beginCycle p) := by
  simp [hostCycle, hr]

theorem hostCycle_idle {p : Pins} (hr : p.rst = false) (hs : p.sel = false) (s : State) :
    hostCycle p s = .next ((s.beginCycle p).driveRdata 0) := by
  simp [hostCycle_of_rst hr, decodePort_pins, hs, exec, execIdle]

theorem hostCycle_read {p : Pins} (hr : p.rst = false) (hs : p.sel = true) (hw : p.we = false)
    (s : State) : hostCycle p s =
      .next ((s.beginCycle p).driveRdata ((s.beginCycle p).readPort p.addr)) := by
  simp [hostCycle_of_rst hr, decodePort_pins, hs, hw, exec, execRd]

theorem hostCycle_write {p : Pins} (hr : p.rst = false) (hs : p.sel = true) (hw : p.we = true)
    (s : State) : hostCycle p s = exec (.wr p.addr p.wdata) (s.beginCycle p) := by
  simp [hostCycle_of_rst hr, decodePort_pins, hs, hw]

/-! ### A host cycle while BUSY -/

/-- s with other contents of what a host cycle can write while BUSY = 1: ERR, ERRCODE and the port's own
state. -/
def State.withPort (e : Bool) (c : Option Cause) (p : Pins) (r : Word) (n : Nat) (s : State) : State :=
  { s with err := e, errcode := c, pins := p, rdata := r, fresh := n }

theorem execWr_of_busy {s : State} (hb : s.busy = true) (a : Addr) (v : Word) :
    execWr a v s = .next (s.raise .busyViolation) :=
  unlessBusy_of_busy hb _

theorem hostCycle_of_busy {p : Pins} {s : State} (hb : s.busy = true) (hr : p.rst = false) :
    ∃ e c r, hostCycle p s = .next (s.withPort e c p r (s.fresh + 1)) := by
  cases hs : p.sel with
  | false => exact ⟨_, _, _, hostCycle_idle hr hs s⟩
  | true =>
    cases hw : p.we with
    | false => exact ⟨_, _, _, hostCycle_read hr hs hw s⟩
    | true => exact ⟨_, _, _, (hostCycle_write hr hs hw s).trans
        (execWr_of_busy (s := s.beginCycle p) hb _ _)⟩

/-- No micro-step reads or writes ERR, ERRCODE or the port's own state. -/
theorem CoreEffect.withPort {s t : State} (h : CoreEffect s t) (e : Bool) (c : Option Cause)
    (p : Pins) (r : Word) (n : Nat) :
    CoreEffect (s.withPort e c p r n) (t.withPort e c p r n) := by
  cases h with
  | hold ho => exact .hold ho
  | expandNext ho hk => exact .expandNext ho hk
  | expandEnd ho hk => exact .expandEnd ho hk
  | cipherInit ho hr => exact .cipherInit ho hr
  | cipherFull ho h0 hr => exact .cipherFull ho h0 hr
  | cipherLast ho hr => exact .cipherLast ho hr
  | computeNext ho hp hk => exact .computeNext ho hp hk
  | computeEnd ho hp hk => exact .computeEnd ho hp hk
  | copyNext ho hp hk => exact .copyNext ho hp hk
  | copyEnd ho hp hk => exact .copyEnd ho hp hk

/-! ### The rows behind a write -/

theorem execCommand_of_busy {s : State} (hb : s.busy = true) (c : Command) :
    execCommand c s = .next (s.raise .busyViolation) := by
  cases c with
  | nop => exact unlessBusy_of_busy hb _
  | expand ks => rw [execCommand, execExpand, unlessBusy_of_busy hb]
  | encrypt => exact unlessBusy_of_busy hb _
  | decrypt => exact unlessBusy_of_busy hb _
  | invsched => exact unlessBusy_of_busy hb _

theorem unlessBusy_execCommand (c : Command) (s : State) :
    unlessBusy s (execCommand c) = execCommand c s := by
  cases hb : s.busy with
  | false => exact unlessBusy_of_idle hb _
  | true => rw [unlessBusy_of_busy hb, execCommand_of_busy hb]

theorem dispatch_of_decodeCtrl {v : Word} {c : Command} (h : decodeCtrl v = .ok c) :
    dispatch v = execCommand c :=
  funext fun s => by simp [dispatch, h]

theorem exists_decodeCtrl_of_decode {v : Word} {i : Instr} (h : decode (.ctrl v) = .ok i) :
    ∃ c : Command, decodeCtrl v = .ok c ∧ c.toInstr = i := by
  cases hd : decodeCtrl v with
  | error r => simp [decode, hd, Except.map, Except.mapError] at h
  | ok c => exact ⟨c, rfl, by simpa [decode, hd, Except.map, Except.mapError] using h⟩

/-- The write of a legal word to CTRL is that word's row: both check BUSY, and checking twice is checking
once. -/
theorem exec_wr_ctrl {v : Word} {i : Instr} (h : decode (.ctrl v) = .ok i) (s : State) :
    exec (.wr 0x00 v) s = exec i s := by
  obtain ⟨c, hd, rfl⟩ := exists_decodeCtrl_of_decode h
  calc exec (.wr 0x00 v) s
    _ = unlessBusy s (dispatch v) := rfl
    _ = execCommand c s := by rw [dispatch_of_decodeCtrl hd, unlessBusy_execCommand]
    _ = exec c.toInstr s := (exec_toInstr c s).symm

theorem writes_of_acceptsBlockWrite {s : State} {p : Pins} (h : acceptsBlockWrite s p = true) :
    s.busy = false ∧ p.Writes (0x04 + (blockIndex p.addr).val) := by
  simp only [acceptsBlockWrite, Bool.and_eq_true, Bool.not_eq_true', decide_eq_true_eq] at h
  obtain ⟨⟨⟨⟨hr, hs⟩, hw⟩, hb⟩, ha⟩ := h
  exact ⟨hb, hr, hs, hw, by simp only [blockIndex]; omega⟩

/-- An accepted write to BLOCK is HOSTWR: the word its address names is the one HOSTWR takes from the
pins. -/
theorem hostCycle_of_acceptsBlockWrite {s : State} {p : Pins} (h : acceptsBlockWrite s p = true) :
    hostCycle p s = exec .hostwr (s.beginCycle p) := by
  obtain ⟨hb, hw⟩ := writes_of_acceptsBlockWrite h
  rw [hostCycle_write hw.rst hw.sel hw.we, exec, execWr,
    unlessBusy_of_idle (s := s.beginCycle p) hb, target_block _ hw.addr]
  rfl

/-! ### The next event, by what is pending -/

theorem step_host {s : State} {p : Pins} {rest : List Event} (h : s.pending = .host p :: rest) :
    step s = hostCycle p { s with pending := rest } := by
  simp [step, h]

theorem step_core {s : State} {rest : List Event} (h : s.pending = .core :: rest) :
    step s = coreStep { s with pending := rest } := by
  simp [step, h]

theorem step_busy {s : State} (h : s.pending = []) (hb : s.busy = true) : step s = coreStep s := by
  simp [step, h, hb]

theorem step_quiet {s : State} (h : s.pending = []) (hb : s.busy = false) :
    step s = hostCycle .quiet s := by
  simp [step, h, hb]

end Sys2Proof.Machine

namespace Sys2Proof.Proofs

open Sys2Proof.Machine

/-- Settles O35: a read only drives rdata in the cycle it begins. -/
theorem readsChangeNothing : Obligations.ReadsChangeNothing :=
  fun _ s hr hs hw => ⟨_, hostCycle_read hr hs hw s⟩

/-- Settles O5: the host cycles by the row their pins carry, the turns of the CORE by OP and PH. -/
theorem stepRunsTheDecodedInstruction : Obligations.StepRunsTheDecodedInstruction := by
  refine ⟨?port, ?ctrl, ?block, ?core, ?busy, ?quiet, ?idle, ?cipher, ?expand, ?compute, ?copy⟩
  case port => exact fun s p rest hp hr => (step_host hp).trans (hostCycle_of_rst hr _)
  case ctrl =>
    exact fun s v rest i hp hd =>
      ((step_host hp).trans (hostCycle_write rfl rfl rfl _)).trans (exec_wr_ctrl hd _)
  case block =>
    exact fun s p rest hp ha => (step_host hp).trans (hostCycle_of_acceptsBlockWrite ha)
  case core => exact fun s rest hp => step_core hp
  case busy => exact fun s hp hb => step_busy hp hb
  case quiet => exact fun s hp hb => (step_quiet hp hb).trans (hostCycle_idle rfl rfl s)
  case idle => exact fun s ho => coreStep_idle ho
  case cipher => exact fun s ho => by simp [coreStep, ho]
  case expand => exact fun s ho => by simp [coreStep, ho]
  case compute => exact fun s ho hp => by simp [coreStep_invsched ho, State.invschedStep, hp]
  case copy => exact fun s ho hp => by simp [coreStep_invsched ho, State.invschedStep, hp]

/-- Settles O36: what a host cycle writes while BUSY = 1 is what no micro-step reads or writes. -/
theorem hostCycleNeverDisturbsTheOperation : Obligations.HostCycleNeverDisturbsTheOperation := by
  intro p s hb hr
  obtain ⟨e, c, r, hcycle⟩ := hostCycle_of_busy hb hr
  exact ⟨e, c, r, hcycle, fun t ht => ((coreStep_effect ht).withPort e c p r _).coreStep_eq⟩

end Sys2Proof.Proofs

/-! The fields of a CTRL word (30_encoding.md R82), the words that are well formed, and that decoding undoes
encoding (R81 to R91). -/

namespace Sys2Proof

/-! ### The fields of a CTRL word -/

theorem ofBool_getLsbD {w : Nat} (v : BitVec w) (i : Nat) :
    BitVec.ofBool (v.getLsbD i) = v.extractLsb' i 1 := by
  ext j hj
  obtain rfl : j = 0 := by omega
  rw [BitVec.getElem_ofBool, BitVec.getElem_extractLsb', Nat.add_zero]

/-- The four fields, from the most significant down, join to the word. -/
theorem ctrlWord_ctrlCmd_ctrlKs {v : Word} (h3 : v.getLsbD 3 = false) (hi : v.extractLsb' 6 26 = 0#26) :
    ctrlWord (ctrlCmd v) (ctrlKs v) = v := by
  have hbit : 0#1 = v.extractLsb' 3 1 := by rw [← ofBool_getLsbD, h3]; rfl
  have hks : v.extractLsb' 6 26 ++ ctrlKs v = v.extractLsb' 4 28 :=
    BitVec.extractLsb'_append_extractLsb'_eq_extractLsb' rfl
  have hlow : v.extractLsb' 4 28 ++ v.extractLsb' 3 1 = v.extractLsb' 3 29 :=
    BitVec.extractLsb'_append_extractLsb'_eq_extractLsb' rfl
  rw [ctrlWord, ← hi, hbit, hks, hlow]
  exact BitVec.extractLsb'_append_extractLsb'

/-- What the form checks of R182 let through. -/
theorem eq_ctrlWord_of_not_malformed {v : Word} (h : ctrlMalformed v = false) :
    v = ctrlWord (ctrlCmd v) (ctrlKs v) ∧ (ctrlCmd v).toNat < 5 ∧ (ctrlCmd v = 1 ∨ ctrlKs v = 0) := by
  simp only [ctrlMalformed, Bool.or_eq_false_iff, bne_eq_false_iff_eq, decide_eq_false_iff_not,
    Bool.and_eq_false_iff] at h
  obtain ⟨⟨⟨h3, hi⟩, hcmd⟩, hks⟩ := h
  exact ⟨(ctrlWord_ctrlCmd_ctrlKs h3 hi).symm, Nat.not_le.mp hcmd, hks⟩

/-- EXPAND's mask leaves every field but KS. -/
theorem eq_ctrlWord_of_expand_mask {v : Word} (h : v.toNat &&& 0xFFFFFFCF = 1) :
    v = ctrlWord 1 (ctrlKs v) := by
  have hv : v &&& 0xFFFFFFCF#32 = 1#32 := BitVec.eq_of_toNat_eq h
  have hfield (k n : Nat) (hm : (0xFFFFFFCF#32).extractLsb' k n = BitVec.allOnes n) :
      v.extractLsb' k n = (1#32).extractLsb' k n := by
    rw [← hv, BitVec.extractLsb'_and, hm, BitVec.and_allOnes]
  have hcmd : ctrlCmd v = 1 := hfield 0 3 (by decide)
  have h3 : v.getLsbD 3 = false := by
    rw [BitVec.getLsbD_eq_extractLsb', hfield 3 1 (by decide)]
    decide
  have hi : v.extractLsb' 6 26 = 0#26 := hfield 6 26 (by decide)
  rw [← hcmd, ctrlWord_ctrlCmd_ctrlKs h3 hi]

/-! ### Decoding what was encoded -/

theorem decodeCtrl_expand {ks : BitVec 2} (h : ks ≠ 3) : decodeCtrl (ctrlWord 1 ks) = .ok (.expand ks) := by
  revert ks
  decide

theorem decodeSsel_of_five_le {sel : BitVec 3} (h : 5 ≤ sel.toNat) :
    decodeSsel sel = .error .unusedSelect := by
  revert sel
  decide

theorem decode_encode {i : Instr} (h : i.wellFormed = true) : decode (encode i) = .ok i := by
  cases i with
  | idle we addr => simp [encode, decode, decodePort]
  | rd addr => simp [encode, decode, decodePort]
  | wr addr wdata => simp [encode, decode, decodePort]
  | expand ks =>
    have hks : ks ≠ 3 := by simpa [Instr.wellFormed] using h
    rw [encode, decode, decodeCtrl_expand hks]
    rfl
  | nop | encrypt | decrypt | invsched => decide
  | hold | hostwr | init | full | last => decide
  | keycopy | plain | rotsub | subonly => decide

end Sys2Proof

namespace Sys2Proof.Proofs

/-- Settles O1, format by format: the fields of a PORT code, EXPAND's KS, and the fixed codes. -/
theorem encodedInstrDecodesBack : Obligations.EncodedInstrDecodesBack :=
  fun _ h => decode_encode h

end Sys2Proof.Proofs

/-! The decoder against the rows of the opcode table (30_encoding.md R95): what it accepts is selected by the
row it answers, and what a row selects it accepts, but for EXPAND with KS = 3. -/

namespace Sys2Proof

theorem row_selects_encode (i : Instr) : i.row.selects (encode i) = true := by
  cases i with
  | idle we addr => exact Laws.MatchesRow.idle we addr
  | rd addr => exact Laws.MatchesRow.rd addr
  | wr addr wdata => exact Laws.MatchesRow.wr addr wdata
  | nop => exact Laws.MatchesRow.nop
  | expand ks => exact Laws.MatchesRow.expand ks
  | encrypt => exact Laws.MatchesRow.encrypt
  | decrypt => exact Laws.MatchesRow.decrypt
  | invsched => exact Laws.MatchesRow.invsched
  | hold => exact Laws.MatchesRow.hold
  | hostwr => exact Laws.MatchesRow.hostwr
  | init => exact Laws.MatchesRow.init
  | full => exact Laws.MatchesRow.full
  | last => exact Laws.MatchesRow.last
  | keycopy => exact Laws.MatchesRow.keycopy
  | plain => exact Laws.MatchesRow.plain
  | rotsub => exact Laws.MatchesRow.rotsub
  | subonly => exact Laws.MatchesRow.subonly

theorem Row.selects_iff {r : Row} {c : Code} :
    r.selects c = true ↔ c.format = r.format ∧ c.bits &&& r.mask = r.pattern := by
  simp [Row.selects]

/-! ### PORT -/

theorem portCode_fields (code : BitVec 9) :
    portCode (portSel code) (portWe code) (portAddr code) = code := by
  have hhigh : code.extractLsb' 8 1 ++ code.extractLsb' 7 1 = code.extractLsb' 7 2 :=
    BitVec.extractLsb'_append_extractLsb'_eq_extractLsb' rfl
  rw [portCode, portSel, portWe, ofBool_getLsbD, ofBool_getLsbD, hhigh]
  exact BitVec.extractLsb'_append_extractLsb'

theorem port_and_select_mask (code : BitVec 9) :
    code.toNat &&& 0x180 = 256 * (portSel code).toNat + 128 * (portWe code).toNat := by
  rw [← Laws.MatchesRow.port_bits _ _ (portAddr code), portCode_fields]

theorem port_and_sel_mask (code : BitVec 9) : code.toNat &&& 0x100 = 256 * (portSel code).toNat := by
  have hmask : code.toNat &&& 0x100 = code.toNat &&& 0x180 &&& 0x100 := by
    rw [Nat.and_assoc, show 0x180 &&& 0x100 = 0x100 from rfl]
  rw [hmask, port_and_select_mask]
  cases portSel code <;> cases portWe code <;> rfl

/-- `sel` and `we` pick the row. -/
theorem selects_port_iff {j : Instr} (hj : j.row.format = .port) (code : BitVec 9) (wdata : Word) :
    j.row.selects (.port code wdata) = true ↔ (decodePort code wdata).row = j.row := by
  have hwe := port_and_select_mask code
  have hsel := port_and_sel_mask code
  rw [Row.selects_iff, and_iff_right (by simp [hj, Code.format]), Code.bits, decodePort]
  cases j
  case idle =>
    cases hs : portSel code <;> cases hw : portWe code <;>
      simp [Instr.row, hsel, hs]
  case rd =>
    cases hs : portSel code <;> cases hw : portWe code <;>
      simp [Instr.row, hwe, hs, hw]
  case wr =>
    cases hs : portSel code <;> cases hw : portWe code <;>
      simp [Instr.row, hwe, hs, hw]
  all_goals cases hj

/-! ### Every code is rejected, or selected by the row it decodes to -/

/-- Of the words of a good form only EXPAND with KS = 3 is rejected. -/
theorem rejected_or_encoded_ctrlWord {cmd : BitVec 3} {ks : BitVec 2} (hcmd : cmd.toNat < 5)
    (hks : cmd = 1 ∨ ks = 0) :
    (∃ r, decode (.ctrl (ctrlWord cmd ks)) = .error r)
    ∨ ∃ i : Instr, i.wellFormed = true ∧ encode i = .ctrl (ctrlWord cmd ks) := by
  obtain rfl | hne := eq_or_ne cmd 1
  · obtain rfl | h3 := eq_or_ne ks 3
    · exact .inl ⟨.ctrl .illegalKeysize, by decide⟩
    · exact .inr ⟨.expand ks, by simpa [Instr.wellFormed] using h3, rfl⟩
  · obtain rfl : ks = 0 := hks.resolve_left hne
    have hcmd' : cmd = 0 ∨ cmd = 2 ∨ cmd = 3 ∨ cmd = 4 := by
      revert cmd
      decide
    obtain rfl | rfl | rfl | rfl := hcmd'
    · exact .inr ⟨.nop, rfl, rfl⟩
    · exact .inr ⟨.encrypt, rfl, rfl⟩
    · exact .inr ⟨.decrypt, rfl, rfl⟩
    · exact .inr ⟨.invsched, rfl, rfl⟩

/-- Each code beside PORT that is not rejected is some row's encoding. -/
theorem rejected_or_encoded {c : Code} (hc : c.format ≠ .port) :
    (∃ r, decode c = .error r) ∨ ∃ i : Instr, i.wellFormed = true ∧ encode i = c := by
  cases c with
  | port code wdata => exact absurd rfl hc
  | ctrl v =>
    cases hm : ctrlMalformed v with
    | true => exact .inl ⟨.ctrl .illegalCmd, by simp [decode, decodeCtrl, hm, Except.map, Except.mapError]⟩
    | false =>
      obtain ⟨hv, hcmd, hks⟩ := eq_ctrlWord_of_not_malformed hm
      rw [hv]
      exact rejected_or_encoded_ctrlWord hcmd hks
  | ssel sel =>
    have hsel : 5 ≤ sel.toNat ∨ sel = 0 ∨ sel = 1 ∨ sel = 2 ∨ sel = 3 ∨ sel = 4 := by
      revert sel
      decide
    obtain h5 | rfl | rfl | rfl | rfl | rfl := hsel
    · exact .inl ⟨.unusedSelect, by rw [decode, decodeSsel_of_five_le h5]; rfl⟩
    · exact .inr ⟨.hold, rfl, rfl⟩
    · exact .inr ⟨.hostwr, rfl, rfl⟩
    · exact .inr ⟨.init, rfl, rfl⟩
    · exact .inr ⟨.full, rfl, rfl⟩
    · exact .inr ⟨.last, rfl, rfl⟩
  | ksel sel =>
    have hsel : sel = 0 ∨ sel = 1 ∨ sel = 2 ∨ sel = 3 := by
      revert sel
      decide
    obtain rfl | rfl | rfl | rfl := hsel
    · exact .inr ⟨.keycopy, rfl, rfl⟩
    · exact .inr ⟨.plain, rfl, rfl⟩
    · exact .inr ⟨.rotsub, rfl, rfl⟩
    · exact .inr ⟨.subonly, rfl, rfl⟩

theorem decodePort_wellFormed (code : BitVec 9) (wdata : Word) :
    (decodePort code wdata).wellFormed = true := by
  unfold decodePort
  split_ifs <;> rfl

theorem decodePort_row_format (code : BitVec 9) (wdata : Word) :
    (decodePort code wdata).row.format = .port := by
  unfold decodePort
  split_ifs <;> rfl

theorem rejected_or_selected (c : Code) : (∃ r, decode c = .error r) ∨
    ∃ i : Instr, decode c = .ok i ∧ i.wellFormed = true ∧ i.row.selects c = true := by
  by_cases hp : c.format = .port
  · cases c
    case port code wdata =>
      exact .inr ⟨_, rfl, decodePort_wellFormed code wdata,
        (selects_port_iff (decodePort_row_format code wdata) code wdata).mpr rfl⟩
    all_goals cases hp
  · refine (rejected_or_encoded hp).imp_right ?_
    rintro ⟨i, hi, rfl⟩
    exact ⟨i, decode_encode hi, hi, row_selects_encode i⟩

/-! ### A code that a row selects -/

/-- How many bits a format's codes have (R80). -/
def Format.width : Format → Nat
  | .port => 9
  | .ctrl => 32
  | .ssel => 3
  | .ksel => 2

theorem Code.bits_lt (c : Code) : c.bits < 2 ^ c.format.width := by
  cases c with
  | port code _ => exact code.isLt
  | ctrl v => exact v.isLt
  | ssel sel => exact sel.isLt
  | ksel sel => exact sel.isLt

/-- Outside PORT, whose codes have the bus beside their bits, a code is its format and its bits. -/
theorem Code.eq_of_bits_eq {c d : Code} (hp : d.format ≠ .port) (hf : c.format = d.format)
    (hb : c.bits = d.bits) : c = d := by
  match c, d, hf with
  | .port .., .port .., _ => exact absurd rfl hp
  | .ctrl _, .ctrl _, _ => exact congrArg Code.ctrl (BitVec.eq_of_toNat_eq hb)
  | .ssel _, .ssel _, _ => exact congrArg Code.ssel (BitVec.eq_of_toNat_eq hb)
  | .ksel _, .ksel _, _ => exact congrArg Code.ksel (BitVec.eq_of_toNat_eq hb)

/-- A row whose mask keeps every bit selects one code. -/
theorem eq_encode_of_selects {c : Code} {j : Instr} (hp : j.row.format ≠ .port)
    (hmask : j.row.mask = 2 ^ j.row.format.width - 1) (h : j.row.selects c = true) : c = encode j := by
  have hbits {d : Code} (hd : j.row.selects d = true) :
      d.format = j.row.format ∧ d.bits = j.row.pattern := by
    obtain ⟨hf, hb⟩ := Row.selects_iff.mp hd
    rw [hmask, Nat.and_two_pow_sub_one_eq_mod, ← hf, Nat.mod_eq_of_lt d.bits_lt] at hb
    exact ⟨hf, hb⟩
  obtain ⟨hcf, hcb⟩ := hbits h
  obtain ⟨hef, heb⟩ := hbits (row_selects_encode j)
  exact Code.eq_of_bits_eq (hef ▸ hp) (hcf.trans hef.symm) (hcb.trans heb.symm)

/-- EXPAND's row selects the words of its four key-size codes. -/
theorem decode_of_expand_selects {c : Code} {ks : BitVec 2} (h : (Instr.expand ks).row.selects c = true) :
    c = .ctrl 0x00000031 ∨ ∃ ks', decode c = .ok (.expand ks') := by
  obtain ⟨hf, hb⟩ := Row.selects_iff.mp h
  cases c
  case ctrl v =>
    rw [eq_ctrlWord_of_expand_mask hb]
    obtain h3 | h3 := eq_or_ne (ctrlKs v) 3
    · exact .inl (by rw [h3]; rfl)
    · exact .inr ⟨ctrlKs v, decode_encode (i := .expand (ctrlKs v)) (by simpa [Instr.wellFormed] using h3)⟩
  all_goals cases hf

/-- Whatever row selects a code, the code decodes to an instruction of that row, or is EXPAND with KS = 3. -/
theorem decode_of_selects {c : Code} {j : Instr} (h : j.row.selects c = true) :
    c = .ctrl 0x00000031 ∨ ∃ i, decode c = .ok i ∧ i.row = j.row := by
  have hport (hj : j.row.format = .port) : ∃ i, decode c = .ok i ∧ i.row = j.row := by
    have hf := (Row.selects_iff.mp h).1.trans hj
    cases c
    case port code wdata => exact ⟨_, rfl, (selects_port_iff hj code wdata).mp h⟩
    all_goals cases hf
  have hfixed (hj : j.wellFormed = true) (hp : j.row.format ≠ .port)
      (hmask : j.row.mask = 2 ^ j.row.format.width - 1) : ∃ i, decode c = .ok i ∧ i.row = j.row :=
    ⟨j, by rw [eq_encode_of_selects hp hmask h, decode_encode hj], rfl⟩
  cases j with
  | idle | rd | wr => exact .inr (hport rfl)
  | expand ks => exact (decode_of_expand_selects h).imp_right fun ⟨ks', hd⟩ => ⟨_, hd, rfl⟩
  | nop | encrypt | decrypt | invsched => exact .inr (hfixed rfl (by decide) rfl)
  | hold | hostwr | init | full | last => exact .inr (hfixed rfl (by decide) rfl)
  | keycopy | plain | rotsub | subonly => exact .inr (hfixed rfl (by decide) rfl)

theorem not_ok_of_error {c : Code} {r : Reject} {i : Instr} (hr : decode c = .error r) :
    decode c ≠ .ok i := by
  rw [hr]
  exact nofun

theorem decode_expand_with_ks_3 : decode (.ctrl 0x00000031) = .error (.ctrl .illegalKeysize) := by
  decide

end Sys2Proof

namespace Sys2Proof.Proofs

/-- Settles O2: an accepted code is selected by its row, and a selected code decodes into that row or is
0x00000031. -/
theorem decoderFollowsTheTable : Obligations.DecoderFollowsTheTable := by
  refine ⟨fun c i hd => ?_, fun c => ⟨fun ⟨r, hr⟩ => ?_, fun h => ?_⟩⟩
  · obtain ⟨r, hr⟩ | ⟨i', hd', hwf, hsel⟩ := rejected_or_selected c
    · exact absurd hd (not_ok_of_error hr)
    obtain rfl : i = i' := Except.ok.inj (hd.symm.trans hd')
    refine ⟨hwf, hsel, fun j hj => ?_⟩
    obtain rfl | ⟨i', hd', hrow⟩ := decode_of_selects hj
    · exact absurd hd (not_ok_of_error decode_expand_with_ks_3)
    · obtain rfl : i = i' := Except.ok.inj (hd.symm.trans hd')
      exact hrow.symm
  · by_cases hsel : ∃ j : Instr, j.row.selects c = true
    · obtain ⟨j, hj⟩ := hsel
      exact .inr ((decode_of_selects hj).resolve_right fun ⟨_, hd, _⟩ => not_ok_of_error hr hd)
    · exact .inl (by simpa using hsel)
  · obtain hnone | rfl := h
    · exact (rejected_or_selected c).resolve_right fun ⟨i, _, _, hi⟩ => by simp [hnone i] at hi
    · exact ⟨_, decode_expand_with_ks_3⟩

/-- Settles O4: twelve fixed codes, evaluated. -/
theorem sampleCodesDecode : Obligations.SampleCodesDecode := by
  unfold Obligations.SampleCodesDecode
  decide

end Sys2Proof.Proofs

/-! The fields of the STATUS word (30_encoding.md R84), read off its value as a number. -/

namespace Sys2Proof.Machine

/-- v is the number x, which needs at most k bits. -/
structure ValueBelow (v : Word) (x k : Nat) : Prop where
  value : v.toNat = x
  lt : x < 2 ^ k

theorem valueBelow_flagWord (b : Bool) : ValueBelow (flagWord b) b.toNat 1 := by
  cases b <;> exact ⟨rfl, by decide⟩

/-- An OR with a field above all bits that are set is a sum. -/
theorem ValueBelow.or_field {v : Word} {x k m : Nat} (h : ValueBelow v x k) (f : BitVec m) (k' : Nat)
    (hk : k + m ≤ k' ∧ k' ≤ 32 := by decide) :
    ValueBelow (v ||| f.setWidth 32 <<< k) (x + 2 ^ k * f.toNat) k' := by
  obtain ⟨hv, hx⟩ := h
  have hf : f.toNat < 2 ^ 32 := f.isLt.trans_le (Nat.pow_le_pow_right (by decide) (by omega))
  have hlt : x + 2 ^ k * f.toNat < 2 ^ k' :=
    calc x + 2 ^ k * f.toNat
      _ < 2 ^ k * (f.toNat + 1) := by rw [Nat.mul_succ, Nat.add_comm]; exact Nat.add_lt_add_left hx _
      _ ≤ 2 ^ k * 2 ^ m := Nat.mul_le_mul_left _ f.isLt
      _ = 2 ^ (k + m) := (Nat.pow_add 2 k m).symm
      _ ≤ 2 ^ k' := Nat.pow_le_pow_right (by decide) hk.1
  have hshift : f.toNat <<< k < 2 ^ 32 := by
    have hword : 2 ^ k' ≤ 2 ^ 32 := Nat.pow_le_pow_right (by decide) hk.2
    rw [Nat.shiftLeft_eq, Nat.mul_comm]
    omega
  refine ⟨?_, hlt⟩
  rw [BitVec.toNat_or, BitVec.toNat_shiftLeft, BitVec.toNat_setWidth, Nat.mod_eq_of_lt hf,
    Nat.mod_eq_of_lt hshift, hv, Nat.lor_comm, ← Nat.shiftLeft_add_eq_or_of_lt hx, Nat.shiftLeft_eq,
    Nat.add_comm, Nat.mul_comm]

/-- The weighted sum of R84: each field lies above the ones before it. -/
theorem toNat_statusWord (s : State) :
    (statusWord s).toNat = s.busy.toNat + 2 * s.done.toNat + 4 * s.err.toNat
      + 16 * s.tag.code.toNat + 64 * s.nk.code.toNat + 256 * s.rc.val
      + 4096 * (errcodeBits s.errcode).toNat := by
  have hrc : BitVec.ofNat 32 s.rc.val = (BitVec.ofNat 4 s.rc.val).setWidth 32 := by
    apply BitVec.eq_of_toNat_eq
    have := s.rc.isLt
    simp only [BitVec.toNat_setWidth, BitVec.toNat_ofNat]
    omega
  have hflags := ((valueBelow_flagWord s.busy).or_field (.ofBool s.done) 2).or_field (.ofBool s.err) 4
  have hfields := (((hflags.or_field s.tag.code 6).or_field s.nk.code 8).or_field
    (.ofNat 4 s.rc.val) 12).or_field (errcodeBits s.errcode) 15
  rw [statusWord, hrc]
  refine hfields.value.trans ?_
  have := s.rc.isLt
  simp only [BitVec.toNat_ofBool, BitVec.toNat_ofNat]
  omega

theorem extractLsb'_eq_of_div_mod {v : Word} {k n : Nat} {f : BitVec n}
    (h : v.toNat / 2 ^ k % 2 ^ n = f.toNat) : v.extractLsb' k n = f := by
  apply BitVec.eq_of_toNat_eq
  rw [BitVec.extractLsb'_toNat, Nat.shiftRight_eq_div_pow, h]

theorem getLsbD_eq_of_div_mod {v : Word} {k : Nat} {b : Bool} (h : v.toNat / 2 ^ k % 2 = b.toNat) :
    v.getLsbD k = b := by
  rw [← BitVec.ofBool_eq_iff_eq, ofBool_getLsbD]
  exact extractLsb'_eq_of_div_mod (h.trans (BitVec.toNat_ofBool b).symm)

end Sys2Proof.Machine

namespace Sys2Proof.Proofs

open Sys2Proof.Machine

/-- Settles O9: STATUS is the weighted sum, and a field is that sum between two powers of two. -/
theorem statusWordLayout : Obligations.StatusWordLayout := by
  intro s
  have hsum := toNat_statusWord s
  have hbusy := s.busy.toNat_lt
  have hdone := s.done.toNat_lt
  have herr := s.err.toNat_lt
  have htag := s.tag.code.isLt
  have hnk := s.nk.code.isLt
  have hrc := s.rc.isLt
  have hcode := (errcodeBits s.errcode).isLt
  refine ⟨getLsbD_eq_of_div_mod ?_, getLsbD_eq_of_div_mod ?_, getLsbD_eq_of_div_mod ?_,
    getLsbD_eq_of_div_mod ?_, extractLsb'_eq_of_div_mod ?_, extractLsb'_eq_of_div_mod ?_,
    extractLsb'_eq_of_div_mod ?_, extractLsb'_eq_of_div_mod ?_, extractLsb'_eq_of_div_mod ?_, hsum⟩
  all_goals
    simp only [hsum, BitVec.ofNat_eq_ofNat, BitVec.toNat_ofNat, Bool.toNat_false]
    omega

end Sys2Proof.Proofs

/-! The codes of the select rows and the state each is generated in (30_encoding.md R90, R91). -/

namespace Sys2Proof.Machine

/-! ### SSEL -/

theorem blockIndex_eq {a : Addr} {c : Fin 4} (h : a.toNat = 0x04 + c.val) : blockIndex a = c := by
  apply Fin.ext
  simp only [blockIndex, h]
  omega

theorem acceptsBlockWrite_iff {s : State} {p : Pins} : acceptsBlockWrite s p = true ↔
    p.rst = false ∧ p.sel = true ∧ p.we = true ∧ s.busy = false
      ∧ 0x04 ≤ p.addr.toNat ∧ p.addr.toNat ≤ 0x07 := by
  simp [acceptsBlockWrite, and_assoc]

theorem exec_hostwr {s : State} {c : Fin 4} (h : s.pins.addr.toNat = 0x04 + c.val) :
    exec .hostwr s = .next (s.putBlockWord c s.pins.wdata) := by
  rw [exec, execHostwr, blockIndex_eq h]

theorem eventSelect_host (s : State) (p : Pins) : eventSelect s (.host p) =
    if p.rst = false ∧ p.sel = true ∧ p.we = true ∧ s.busy = false
        ∧ 0x04 ≤ p.addr.toNat ∧ p.addr.toNat ≤ 0x07 then .hostwr else .hold :=
  if_congr acceptsBlockWrite_iff rfl rfl

theorem eventSelect_core (s : State) : eventSelect s .core =
    if s.op = .cipher then
      if s.rc.val = 0 then .init else if s.rc.val ≤ s.nk.nr - 1 then .full else .last
    else .hold := by
  have hnr : s.rc.val ≤ s.nk.nr - 1 ↔ s.rc.val < s.nk.nr := Nat.le_sub_one_iff_lt s.nk.nr_pos
  cases ho : s.op <;> simp [eventSelect, ho, cipherSelect, hnr]

/-! ### KSEL -/

theorem expandSelect_eq_keycopy {s : State} : expandSelect s = .keycopy ↔ s.ki.val < s.nk.nk := by
  unfold expandSelect
  split_ifs <;> simp only [true_iff, false_iff] <;> assumption

theorem expandSelect_eq_rotsub {s : State} :
    expandSelect s = .rotsub ↔ s.nk.nk ≤ s.ki.val ∧ s.ki.val % s.nk.nk = 0 := by
  unfold expandSelect
  split_ifs <;> simp only [true_iff, false_iff] <;> omega

theorem expandSelect_eq_subonly {s : State} : expandSelect s = .subonly ↔
    s.nk.nk ≤ s.ki.val ∧ 6 < s.nk.nk ∧ s.ki.val % s.nk.nk = 4 := by
  unfold expandSelect
  split_ifs <;> simp only [true_iff, false_iff] <;> omega

theorem expandSelect_eq_plain {s : State} : expandSelect s = .plain ↔
    s.nk.nk ≤ s.ki.val ∧ s.ki.val % s.nk.nk ≠ 0 ∧ ¬(6 < s.nk.nk ∧ s.ki.val % s.nk.nk = 4) := by
  unfold expandSelect
  split_ifs <;> simp only [true_iff, false_iff] <;> omega

/-- Whichever way an EXPAND micro-step ends, word KI of W is what it wrote. -/
theorem State.expandWith_w (v : Word) (s : State) : (s.expandWith v).w = s.w.set s.ki.val v s.ki.isLt := by
  unfold State.expandWith
  split <;> rfl

theorem State.expandWith_w_ki (v : Word) (s : State) : (s.expandWith v).w[s.ki] = v := by
  simp [State.expandWith_w]

end Sys2Proof.Machine

namespace Sys2Proof.Proofs

open Sys2Proof.Machine

/-- Settles O19, one part for each column of R90's table: code, value, condition. -/
theorem stateSelectTable : Obligations.StateSelectTable := by
  refine ⟨⟨rfl, rfl, rfl, rfl, rfl, fun _ => decodeSsel_of_five_le⟩, ?hold, ?hostwr, ?cipher, ?host, ?core⟩
  case hold => exact fun _ => rfl
  case hostwr => exact fun _ _ _ ha => exec_hostwr ha
  case cipher => exact fun _ _ => ⟨fun _ => ⟨_, rfl, rfl⟩, fun _ _ => ⟨_, rfl, rfl⟩, fun _ => ⟨_, rfl, rfl⟩⟩
  case host => exact eventSelect_host
  case core => exact fun s _ => eventSelect_core s

/-- Settles O22, one part for each column of R91's table: code, condition, word. -/
theorem keyExpanderSelectTable : Obligations.KeyExpanderSelectTable :=
  ⟨⟨rfl, rfl, rfl, rfl⟩,
    fun _ => ⟨expandSelect_eq_keycopy, expandSelect_eq_rotsub, expandSelect_eq_subonly,
      expandSelect_eq_plain⟩,
    fun s => ⟨fun _ => ⟨_, rfl, s.expandWith_w_ki _⟩, fun _ => ⟨_, rfl, s.expandWith_w_ki _⟩,
      fun _ _ => ⟨_, rfl, s.expandWith_w_ki _⟩, fun _ _ _ => ⟨_, rfl, s.expandWith_w_ki _⟩⟩⟩

end Sys2Proof.Proofs

/-! The port's row without an operation (30_encoding.md R81). -/

namespace Sys2Proof.Proofs

open Sys2Proof.Machine

/-- Settles O7: IDLE is one update of `rdata`. -/
theorem idleDrivesZeroOnly : Obligations.IdleDrivesZeroOnly :=
  fun _ _ _ => rfl

end Sys2Proof.Proofs

/-! The substitution tables (40_lookup_tables.md R111, R112): a permutation with its inverse, and the affine
image of the field inverse. -/

namespace Sys2Proof.Machine

/-! ### The inverse table (R112) -/

theorem invSbox_sbox : ∀ x, invSbox (sbox x) = x := by decide

/-- SBOX is injective, so it is a permutation of the finitely many bytes, and the law of R112 turns
around. -/
theorem sbox_invSbox : ∀ y, sbox (invSbox y) = y := by
  have hleft : Function.LeftInverse invSbox sbox := invSbox_sbox
  exact hleft.rightInverse_of_surjective (Finite.surjective_of_injective hleft.injective)

/-! ### The equivalent definition (R111) -/

/-- The affine map of R111: a byte with its rotations by 1 to 4, and 0x63. -/
def affine (b : Byte) : Byte :=
  b ^^^ b.rotateLeft 1 ^^^ b.rotateLeft 2 ^^^ b.rotateLeft 3 ^^^ b.rotateLeft 4 ^^^ 0x63

/-- The inverse of `affine`: a rotation by 1, 3 or 6 after one by 0 to 4 rotates by each of 1 to 7 (mod 8)
twice, which cancels, and by 0 once. -/
def affineInverse (y : Byte) : Byte :=
  y.rotateLeft 1 ^^^ y.rotateLeft 3 ^^^ y.rotateLeft 6 ^^^ 0x05

theorem affine_affineInverse : ∀ y, affine (affineInverse y) = y := by decide

/-- The `inv` of R111, read off the table. -/
def fieldInverse (x : Byte) : Byte := affineInverse (sbox x)

theorem fieldInverse_zero : fieldInverse 0 = 0 := rfl

theorem multiply_fieldInverse : ∀ x, x ≠ 0 → multiply x (fieldInverse x) = 0x01 := by decide

theorem sbox_eq_affine_fieldInverse (x : Byte) : sbox x = affine (fieldInverse x) :=
  (affine_affineInverse (sbox x)).symm

/-! ### Fixed points (R111) -/

theorem sbox_ne_self : ∀ x, sbox x ≠ x := by decide

theorem sbox_ne_complement : ∀ x, sbox x ≠ x ^^^ 0xFF := by decide

end Sys2Proof.Machine

namespace Sys2Proof.Proofs

open Sys2Proof.Machine

/-- Settles O56, with the field inverse read off the table by undoing the affine map. -/
theorem substitutionTables : Obligations.SubstitutionTables :=
  ⟨invSbox_sbox, sbox_invSbox, fun x => ⟨sbox_ne_self x, sbox_ne_complement x⟩,
    fieldInverse, fieldInverse_zero, multiply_fieldInverse, sbox_eq_affine_fieldInverse⟩

/-- Settles O57: the 14 doublings are computed. -/
theorem roundConstants : Obligations.RoundConstants := by
  refine ⟨rfl, ?_⟩
  decide

end Sys2Proof.Proofs

/-! The byte laws of the field (41_field_arithmetic.md R121, R123). In its left argument `multiply` is linear
and commutes with `double`, and 0x01 is its left unit; every byte is built from 0x01 by doubling and XOR, so
the other laws follow by induction on how a byte is built. -/

namespace Sys2Proof.Machine

/-! ### Doubling (R121) -/

theorem double_of_bit7 {a : Byte} (h : a.getLsbD 7 = true) : double a = (a <<< 1) ^^^ 0x1B := if_pos h

theorem double_of_not_bit7 {a : Byte} (h : a.getLsbD 7 = false) : double a = a <<< 1 :=
  if_neg (Bool.eq_false_iff.mp h)

/-- The constant XORed in for a set bit 7, as a function of that bit, adds up as the bits do. -/
theorem double_xor (a b : Byte) : double (a ^^^ b) = double a ^^^ double b := by
  unfold double
  rw [BitVec.shiftLeft_xor_distrib, BitVec.getLsbD_xor]
  cases a.getLsbD 7 <;> cases b.getLsbD 7
  case false.false => rfl
  case false.true => exact BitVec.xor_assoc ..
  case true.false =>
    change a <<< 1 ^^^ b <<< 1 ^^^ 0x1B = a <<< 1 ^^^ 0x1B ^^^ b <<< 1
    ac_rfl
  case true.true =>
    calc a <<< 1 ^^^ b <<< 1
      _ = a <<< 1 ^^^ b <<< 1 ^^^ (0x1B ^^^ 0x1B) := by rw [BitVec.xor_self, BitVec.xor_zero]
      _ = a <<< 1 ^^^ 0x1B ^^^ (b <<< 1 ^^^ 0x1B) := by ac_rfl

/-! ### The loop of `multiply` (R122) -/

theorem mulFrom_xor (b : Byte) (n i : Nat) (r r' p p' : Byte) :
    mulFrom b n i (r ^^^ r') (p ^^^ p') = mulFrom b n i r p ^^^ mulFrom b n i r' p' := by
  induction n generalizing i r r' p p' with
  | zero => rfl
  | succ n ih =>
    simp only [mulFrom, double_xor, ← ih]
    split
    · congr 1
      ac_rfl
    · rfl

theorem mulFrom_double (b : Byte) (n i : Nat) (r p : Byte) :
    mulFrom b n i (double r) (double p) = double (mulFrom b n i r p) := by
  induction n generalizing i r p with
  | zero => rfl
  | succ n ih => simp only [mulFrom, ← ih, apply_ite double, double_xor]

/-- What holds of the accumulator and of the running copy, and is kept by XOR and by doubling, holds of the
result. -/
theorem mulFrom_induction {P : Byte → Prop} (hxor : ∀ a b, P a → P b → P (a ^^^ b))
    (hdouble : ∀ a, P a → P (double a)) (b : Byte) (n i : Nat) {r p : Byte} (hr : P r) (hp : P p) :
    P (mulFrom b n i r p) := by
  induction n generalizing i r p with
  | zero => exact hr
  | succ n ih =>
    refine ih (i + 1) ?_ (hdouble p hp)
    split
    · exact hxor r p hr hp
    · exact hr

/-! ### The laws in the left argument -/

theorem multiply_xor_left (a a' b : Byte) : multiply (a ^^^ a') b = multiply a b ^^^ multiply a' b :=
  mulFrom_xor b 8 0 0 0 a a'

theorem multiply_double_left (a b : Byte) : multiply (double a) b = double (multiply a b) :=
  mulFrom_double b 8 0 0 a

@[simp] theorem multiply_zero_left (b : Byte) : multiply 0#8 b = 0#8 := by
  simpa using multiply_xor_left 0 0 b

@[simp] theorem multiply_one_left : ∀ b, multiply 1#8 b = b := by decide

@[simp] theorem multiply_two_left (b : Byte) : multiply 2#8 b = double b :=
  (multiply_double_left 1#8 b).trans (congrArg double (multiply_one_left b))

@[simp] theorem multiply_three_left (b : Byte) : multiply 3#8 b = double b ^^^ b := by
  rw [show 3#8 = 2#8 ^^^ 1#8 from rfl, multiply_xor_left, multiply_two_left, multiply_one_left]

/-- Every byte is the product of 0x01 and itself, which the loop builds from 0x01. -/
theorem byte_induction {P : Byte → Prop} (hone : P 1#8) (hdouble : ∀ a, P a → P (double a))
    (hxor : ∀ a b, P a → P b → P (a ^^^ b)) (b : Byte) : P b :=
  multiply_one_left b ▸ mulFrom_induction hxor hdouble b 8 0 (hxor 1#8 1#8 hone hone) hone

/-! ### The laws in the right argument (R123) -/

theorem multiply_xor_right (a b c : Byte) : multiply a (b ^^^ c) = multiply a b ^^^ multiply a c := by
  induction a using byte_induction with
  | hone => simp only [multiply_one_left]
  | hdouble a ih => simp only [multiply_double_left, ih, double_xor]
  | hxor a a' ih ih' =>
    simp only [multiply_xor_left, ih, ih']
    ac_rfl

theorem multiply_double_right (a b : Byte) : multiply a (double b) = double (multiply a b) := by
  induction a using byte_induction with
  | hone => simp only [multiply_one_left]
  | hdouble a ih => simp only [multiply_double_left, ih]
  | hxor a a' ih ih' => simp only [multiply_xor_left, ih, ih', double_xor]

@[simp] theorem multiply_one_right (a : Byte) : multiply a 1#8 = a := by
  induction a using byte_induction with
  | hone => rfl
  | hdouble a ih => rw [multiply_double_left, ih]
  | hxor a a' ih ih' => rw [multiply_xor_left, ih, ih']

theorem multiply_comm (a b : Byte) : multiply a b = multiply b a := by
  induction a using byte_induction with
  | hone => rw [multiply_one_left, multiply_one_right]
  | hdouble a ih => rw [multiply_double_left, multiply_double_right, ih]
  | hxor a a' ih ih' => rw [multiply_xor_left, multiply_xor_right, ih, ih']

theorem multiply_two_right (a : Byte) : multiply a 2#8 = double a := by
  rw [multiply_comm, multiply_two_left]

theorem multiply_zero_right (a : Byte) : multiply a 0#8 = 0#8 := by
  rw [multiply_comm, multiply_zero_left]

theorem multiply_three_right (a : Byte) : multiply a 3#8 = double a ^^^ a := by
  rw [multiply_comm, multiply_three_left]

theorem multiply_assoc (a b c : Byte) : multiply (multiply a b) c = multiply a (multiply b c) := by
  induction a using byte_induction with
  | hone => simp only [multiply_one_left]
  | hdouble a ih => simp only [multiply_double_left, ih]
  | hxor a a' ih ih' => simp only [multiply_xor_left, ih, ih']

/-! ### Inverses and orders (R121, R123) -/

theorem eq_of_multiply_eq_one {a b b' : Byte} (h : multiply a b = 1#8) (h' : multiply a b' = 1#8) : b' = b :=
  calc b' = multiply (multiply a b) b' := by rw [h, multiply_one_left]
    _ = multiply b (multiply a b') := by rw [multiply_comm a b, multiply_assoc]
    _ = b := by rw [h', multiply_one_right]

/-- 0x8D is the inverse of 0x02. -/
theorem bijective_double : Function.Bijective double :=
  Function.bijective_iff_has_inverse.mpr ⟨multiply 0x8D,
    fun a => (multiply_double_right 0x8D a).trans
      ((multiply_double_left 0x8D a).symm.trans (multiply_one_left a)),
    fun a => (multiply_double_left 0x8D a).symm.trans (multiply_one_left a)⟩

theorem iterate_double_eq_multiply (n : Nat) (a : Byte) : double^[n] a = multiply (double^[n] 1#8) a := by
  induction n with
  | zero => exact (multiply_one_left a).symm
  | succ n ih => rw [Function.iterate_succ_apply', ih, Function.iterate_succ_apply', multiply_double_left]

theorem iterate_double_fiftyOne : double^[51] 1#8 = 1#8 := by decide +kernel

theorem isPeriodicPt_double (a : Byte) : Function.IsPeriodicPt double 51 a :=
  (iterate_double_eq_multiply 51 a).trans (by rw [iterate_double_fiftyOne, multiply_one_left])

theorem iterate_multiply_three : (multiply 3#8)^[255] 1#8 = 1#8 := by decide +kernel

/-- A period is the least one when none of its proper divisors is a period. -/
theorem minimalPeriod_eq_of_forall_dvd {α : Type} {f : α → α} {x : α} {n : Nat} (hpos : 0 < n)
    (hn : f^[n] x = x) (hdvd : ∀ d < n, d ∣ n → f^[d] x ≠ x) : Function.minimalPeriod f x = n := by
  have hper : Function.minimalPeriod f x ∣ n := Function.IsPeriodicPt.minimalPeriod_dvd hn
  refine (Nat.le_of_dvd hpos hper).eq_of_not_lt fun hlt => ?_
  exact hdvd _ hlt hper (Function.isPeriodicPt_minimalPeriod f x)

theorem minimalPeriod_double : Function.minimalPeriod double 1#8 = 51 :=
  minimalPeriod_eq_of_forall_dvd (by decide) iterate_double_fiftyOne (by decide +kernel)

theorem minimalPeriod_multiply_three : Function.minimalPeriod (multiply 3#8) 1#8 = 255 :=
  minimalPeriod_eq_of_forall_dvd (by decide) iterate_multiply_three (by decide +kernel)

end Sys2Proof.Machine

namespace Sys2Proof.Proofs

open Sys2Proof.Machine

/-- Settles O52: `double` is linear, and the multiplication by 0x8D undoes it. -/
theorem doubleLaws : Obligations.DoubleLaws :=
  ⟨fun a => (multiply_two_right a).symm, double_xor, bijective_double, fun _ => double_of_not_bit7,
    fun _ => double_of_bit7, rfl, rfl, rfl, rfl, rfl⟩

/-- Settles O53, from the laws in the left argument by induction on how a byte is built. An order is a least
period, which only the proper divisors of a known period have to be checked for. -/
theorem multiplyLaws : Obligations.MultiplyLaws := by
  refine ⟨multiply_comm, multiply_xor_right, multiply_one_right, multiply_zero_right, multiply_zero_left,
    multiply_two_right, multiply_three_right, multiply_assoc, fun a ha => ?_, fun a => ?_,
    ⟨iterate_double_fiftyOne, fun m hm => ?_⟩, ⟨iterate_multiply_three, fun m hm => ?_⟩,
    rfl, rfl, rfl, rfl, rfl⟩
  · have hinv : multiply a (fieldInverse a) = 1#8 := multiply_fieldInverse a ha
    exact ⟨fieldInverse a, hinv, fun _ => eq_of_multiply_eq_one hinv⟩
  · exact (isPeriodicPt_double a).mul_const 5
  · exact Function.not_isPeriodicPt_of_pos_of_lt_minimalPeriod hm.ne'
      (m.isLt.trans_eq minimalPeriod_double.symm)
  · exact Function.not_isPeriodicPt_of_pos_of_lt_minimalPeriod hm.ne'
      (m.isLt.trans_eq minimalPeriod_multiply_three.symm)

end Sys2Proof.Proofs

/-! The word laws of the field (41_field_arithmetic.md R125, R126), from the byte laws and the product written
out byte by byte. -/

namespace Sys2Proof.Machine

/-! ### XOR of words, byte by byte -/

theorem byteAt_xor (v w : Word) (j : Nat) : byteAt (v ^^^ w) j = byteAt v j ^^^ byteAt w j :=
  BitVec.extractLsb'_xor

theorem wordOf_xor (a0 a1 a2 a3 b0 b1 b2 b3 : Byte) :
    wordOf a0 a1 a2 a3 ^^^ wordOf b0 b1 b2 b3 = wordOf (a0 ^^^ b0) (a1 ^^^ b1) (a2 ^^^ b2) (a3 ^^^ b3) := by
  rw [← wordOf_byteAt (wordOf a0 a1 a2 a3 ^^^ wordOf b0 b1 b2 b3)]
  simp only [byteAt_xor, byteAt_wordOf_zero, byteAt_wordOf_one, byteAt_wordOf_two, byteAt_wordOf_three]

theorem exists_eq_wordOf (w : Word) : ∃ b0 b1 b2 b3, w = wordOf b0 b1 b2 b3 :=
  ⟨_, _, _, _, (wordOf_byteAt w).symm⟩

/-! ### The product (R124) -/

theorem mixWord_wordOf (a0 a1 a2 a3 b0 b1 b2 b3 : Byte) :
    mixWord (wordOf a0 a1 a2 a3) (wordOf b0 b1 b2 b3) = wordOf
      (multiply a0 b0 ^^^ multiply a3 b1 ^^^ multiply a2 b2 ^^^ multiply a1 b3)
      (multiply a1 b0 ^^^ multiply a0 b1 ^^^ multiply a3 b2 ^^^ multiply a2 b3)
      (multiply a2 b0 ^^^ multiply a1 b1 ^^^ multiply a0 b2 ^^^ multiply a3 b3)
      (multiply a3 b0 ^^^ multiply a2 b1 ^^^ multiply a1 b2 ^^^ multiply a0 b3) := by
  simp [mixWord, mixByte]

theorem mixWord_comm (a b : Word) : mixWord a b = mixWord b a := by
  obtain ⟨a0, a1, a2, a3, rfl⟩ := exists_eq_wordOf a
  obtain ⟨b0, b1, b2, b3, rfl⟩ := exists_eq_wordOf b
  simp only [mixWord_wordOf, multiply_comm b0, multiply_comm b1, multiply_comm b2, multiply_comm b3]
  congr 1 <;> ac_rfl

theorem mixWord_xor_right (a b c : Word) : mixWord a (b ^^^ c) = mixWord a b ^^^ mixWord a c := by
  obtain ⟨a0, a1, a2, a3, rfl⟩ := exists_eq_wordOf a
  obtain ⟨b0, b1, b2, b3, rfl⟩ := exists_eq_wordOf b
  obtain ⟨c0, c1, c2, c3, rfl⟩ := exists_eq_wordOf c
  simp only [mixWord_wordOf, wordOf_xor, multiply_xor_right]
  congr 1 <;> ac_rfl

theorem mixWord_xor_left (a b c : Word) : mixWord (a ^^^ b) c = mixWord a c ^^^ mixWord b c := by
  rw [mixWord_comm, mixWord_xor_right, mixWord_comm c a, mixWord_comm c b]

/-- Byte j is on both sides the XOR of the sixteen products of a byte of a, one of b and one of c whose
positions add up to j modulo 4. -/
theorem mixWord_assoc (a b c : Word) : mixWord (mixWord a b) c = mixWord a (mixWord b c) := by
  obtain ⟨a0, a1, a2, a3, rfl⟩ := exists_eq_wordOf a
  obtain ⟨b0, b1, b2, b3, rfl⟩ := exists_eq_wordOf b
  obtain ⟨c0, c1, c2, c3, rfl⟩ := exists_eq_wordOf c
  simp only [mixWord_wordOf, multiply_xor_left, multiply_xor_right, multiply_assoc]
  congr 1 <;> ac_rfl

/-! ### The powers of x: one, and the rotation of the bytes -/

theorem mixWord_one_left (b : Word) : mixWord 1 b = b := by
  obtain ⟨b0, b1, b2, b3, rfl⟩ := exists_eq_wordOf b
  rw [show (1 : Word) = wordOf 1 0 0 0 from rfl, mixWord_wordOf]
  simp

theorem mixWord_zero_left (b : Word) : mixWord 0 b = 0 := by
  simpa using mixWord_xor_left 0 0 b

theorem mixWord_x_left (b : Word) :
    mixWord 0x100 b = wordOf (byteAt b 3) (byteAt b 0) (byteAt b 1) (byteAt b 2) := by
  obtain ⟨b0, b1, b2, b3, rfl⟩ := exists_eq_wordOf b
  rw [show (0x100 : Word) = wordOf 0 1 0 0 from rfl, mixWord_wordOf]
  simp

/-! ### The diffusion polynomials (R125, R126) -/

theorem polyF_eq_wordOf : polyF = wordOf 0x02#8 0x01#8 0x01#8 0x03#8 := rfl

theorem polyI_eq_wordOf : polyI = wordOf 0x0E#8 0x09#8 0x0D#8 0x0B#8 := rfl

theorem mixWord_polyI_polyF : mixWord polyI polyF = 1 := rfl

theorem mixWord_polyF_polyI : mixWord polyF polyI = 1 := rfl

theorem mixWord_polyI_mixWord_polyF (w : Word) : mixWord polyI (mixWord polyF w) = w := by
  rw [← mixWord_assoc, mixWord_polyI_polyF, mixWord_one_left]

theorem mixWord_polyF_mixWord_polyI (w : Word) : mixWord polyF (mixWord polyI w) = w := by
  rw [← mixWord_assoc, mixWord_polyF_polyI, mixWord_one_left]

theorem mixWord_polyF_wordOf (s0 s1 s2 s3 : Byte) : mixWord polyF (wordOf s0 s1 s2 s3) =
    wordOf (double s0 ^^^ (double s1 ^^^ s1) ^^^ s2 ^^^ s3)
      (s0 ^^^ double s1 ^^^ (double s2 ^^^ s2) ^^^ s3)
      (s0 ^^^ s1 ^^^ double s2 ^^^ (double s3 ^^^ s3))
      ((double s0 ^^^ s0) ^^^ s1 ^^^ s2 ^^^ double s3) := by
  rw [polyF_eq_wordOf, mixWord_wordOf]
  simp only [multiply_one_left, multiply_two_left, multiply_three_left]

/-- Every byte of the product with a word of four equal bytes is the XOR of the other word's bytes, times
that byte. -/
theorem mixWord_equal_bytes {p0 p1 p2 p3 : Byte} (h : p0 ^^^ p1 ^^^ p2 ^^^ p3 = 1#8) (b : Byte) :
    mixWord (wordOf p0 p1 p2 p3) (wordOf b b b b) = wordOf b b b b := by
  rw [mixWord_wordOf]
  simp only [← multiply_xor_left]
  have hb : ∀ q, q = p0 ^^^ p1 ^^^ p2 ^^^ p3 → multiply q b = b := by
    rintro q rfl
    rw [h, multiply_one_left]
  congr 1 <;> exact hb _ (by ac_rfl)

theorem mixWord_polyF_equal_bytes (b : Byte) : mixWord polyF (wordOf b b b b) = wordOf b b b b :=
  mixWord_equal_bytes (p0 := 0x02) (p1 := 0x01) (p2 := 0x01) (p3 := 0x03) rfl b

theorem mixWord_polyI_equal_bytes (b : Byte) : mixWord polyI (wordOf b b b b) = wordOf b b b b :=
  mixWord_equal_bytes (p0 := 0x0E) (p1 := 0x09) (p2 := 0x0D) (p3 := 0x0B) rfl b


end Sys2Proof.Machine

namespace Sys2Proof.Proofs

open Sys2Proof.Machine

/-- Settles O54, from the product written out byte by byte and the laws of `multiply`. -/
theorem mixWordLaws : Obligations.MixWordLaws :=
  ⟨mixWord_comm, mixWord_xor_right, mixWord_xor_left, mixWord_one_left, mixWord_zero_left, mixWord_x_left,
    mixWord_assoc, fun w => ⟨mixWord_polyI_mixWord_polyF w, mixWord_polyF_mixWord_polyI w⟩,
    mixWord_polyF_wordOf, mixWord_wordOf 0x0E 0x09 0x0D 0x0B,
    fun b => ⟨mixWord_polyF_equal_bytes b, mixWord_polyI_equal_bytes b⟩, rfl, rfl, rfl⟩

/-- Settles O55, by evaluation of the two products. -/
theorem diffusionPolynomials : Obligations.DiffusionPolynomials :=
  ⟨polyF_eq_wordOf, polyI_eq_wordOf, rfl, rfl, mixWord_polyI_polyF, mixWord_polyF_polyI⟩

end Sys2Proof.Proofs

/-! The state transforms (42_state_transforms.md): what each does to a column or a byte of a block, and that
the other parameter undoes it. -/

namespace Sys2Proof.Machine

/-! ### Equality byte by byte -/

theorem word_ext_byteAt {v w : Word} (h : ∀ r, r < 4 → byteAt v r = byteAt w r) : v = w := by
  rw [← wordOf_byteAt v, ← wordOf_byteAt w, h 0 (by decide), h 1 (by decide), h 2 (by decide), h 3 (by decide)]

theorem block_ext_byteAt {x y : Block}
    (h : ∀ (c : Nat) (hc : c < 4) (r : Nat), r < 4 → byteAt x[c] r = byteAt y[c] r) : x = y :=
  Vector.ext fun c hc => word_ext_byteAt (h c hc)

/-! ### Substitution (R130) -/

theorem getElem_substitute (tab : Byte → Byte) (b : Block) {c : Nat} (hc : c < 4) :
    (substitute tab b)[c] = subWord tab b[c] := by
  match c, hc with
  | 0, _ | 1, _ | 2, _ | 3, _ => rfl

theorem byteAt_subWord (tab : Byte → Byte) (w : Word) {r : Nat} (hr : r < 4) :
    byteAt (subWord tab w) r = tab (byteAt w r) := by
  unfold subWord
  match r, hr with
  | 0, _ => exact byteAt_wordOf_zero ..
  | 1, _ => exact byteAt_wordOf_one ..
  | 2, _ => exact byteAt_wordOf_two ..
  | 3, _ => exact byteAt_wordOf_three ..

theorem byteAt_substitute (tab : Byte → Byte) (b : Block) {c r : Nat} (hc : c < 4) (hr : r < 4) :
    byteAt (substitute tab b)[c] r = tab (byteAt b[c] r) := by
  rw [getElem_substitute, byteAt_subWord tab _ hr]

theorem substitute_substitute {f g : Byte → Byte} (h : Function.LeftInverse g f) (b : Block) :
    substitute g (substitute f b) = b :=
  block_ext_byteAt fun c hc r hr => by
    rw [byteAt_substitute g _ hc hr, byteAt_substitute f b hc hr, h]

/-! ### Row rotation (R131) -/

theorem column_eq_getElem (b : Block) {c : Nat} (hc : c < 4) : column b c = b[c] := by
  simp [column, hc]

theorem getElem_rowRotate (sh : Nat) (b : Block) {c : Nat} (hc : c < 4) :
    (rowRotate sh b)[c] = rotatedColumn sh b c := by
  match c, hc with
  | 0, _ | 1, _ | 2, _ | 3, _ => rfl

theorem byteAt_rotatedColumn (sh : Nat) (b : Block) (c : Nat) {r : Nat} (hr : r < 4) :
    byteAt (rotatedColumn sh b c) r = byteAt (column b ((c + sh * r) % 4)) r := by
  unfold rotatedColumn
  match r, hr with
  | 0, _ => exact byteAt_wordOf_zero ..
  | 1, _ => rw [Nat.mul_one]; exact byteAt_wordOf_one ..
  | 2, _ => exact byteAt_wordOf_two ..
  | 3, _ => exact byteAt_wordOf_three ..

theorem byteAt_rowRotate (sh : Nat) (b : Block) {c r : Nat} (hc : c < 4) (hr : r < 4) :
    byteAt (rowRotate sh b)[c] r = byteAt (b[(c + sh * r) % 4]'(Nat.mod_lt _ (by decide))) r := by
  rw [getElem_rowRotate, byteAt_rotatedColumn sh b c hr, column_eq_getElem]

/-- Row r moves by `sh * r` and then by `sh' * r` columns. -/
theorem rowRotate_rowRotate (sh sh' : Nat) (b : Block) :
    rowRotate sh' (rowRotate sh b) = rowRotate (sh' + sh) b :=
  block_ext_byteAt fun c hc r hr => by
    have hcol : ((c + sh' * r) % 4 + sh * r) % 4 = (c + (sh' + sh) * r) % 4 := by
      rw [Nat.mod_add_mod, Nat.add_assoc, ← Nat.add_mul]
    simp only [byteAt_rowRotate _ _ (Nat.mod_lt _ (by decide)) hr, byteAt_rowRotate _ _ hc hr, hcol]

theorem rowRotate_four (b : Block) : rowRotate 4 b = b :=
  block_ext_byteAt fun c hc r hr => by
    simp only [byteAt_rowRotate 4 b hc hr, Nat.add_mul_mod_self_left, Nat.mod_eq_of_lt hc]

/-- One permutes the bytes, the other acts on each byte alone. -/
theorem rowRotate_substitute (tab : Byte → Byte) (sh : Nat) (b : Block) :
    rowRotate sh (substitute tab b) = substitute tab (rowRotate sh b) :=
  block_ext_byteAt fun c hc r hr => by
    rw [byteAt_rowRotate sh _ hc hr, byteAt_substitute tab b _ hr, byteAt_substitute tab _ hc hr,
      byteAt_rowRotate sh b hc hr]

/-! ### Column mixing (R132) -/

theorem getElem_colMix (p : Word) (b : Block) {c : Nat} (hc : c < 4) : (colMix p b)[c] = mixWord p b[c] := by
  match c, hc with
  | 0, _ | 1, _ | 2, _ | 3, _ => rfl

theorem colMix_colMix {p q : Word} (h : ∀ w, mixWord q (mixWord p w) = w) (b : Block) :
    colMix q (colMix p b) = b :=
  Vector.ext fun c hc => by rw [getElem_colMix, getElem_colMix, h]

/-! ### Round-key addition (R133) -/

theorem getElem_addKey (b k : Block) {c : Nat} (hc : c < 4) : (addKey b k)[c] = b[c] ^^^ k[c] := by
  match c, hc with
  | 0, _ | 1, _ | 2, _ | 3, _ => rfl

theorem addKey_addKey (b k : Block) : addKey (addKey b k) k = b :=
  Vector.ext fun c hc => by
    rw [getElem_addKey, getElem_addKey, BitVec.xor_assoc, BitVec.xor_self, BitVec.xor_zero]

end Sys2Proof.Machine

namespace Sys2Proof.Proofs

open Sys2Proof.Machine

/-- Settles O58: the formulas byte by byte and column by column. The two shifts add up to a rotation by four
columns; tables and polynomials are undone in each byte or column, by R112 and R126. -/
theorem transformsAndTheirInverses : Obligations.TransformsAndTheirInverses :=
  ⟨fun tab b c r => byteAt_substitute tab b c.isLt r.isLt,
    fun sh b c r => byteAt_rowRotate sh b c.isLt r.isLt,
    fun p b c => getElem_colMix p b c.isLt,
    fun b k c => getElem_addKey b k c.isLt,
    fun b => ⟨substitute_substitute invSbox_sbox b, substitute_substitute sbox_invSbox b⟩,
    fun b => ⟨(rowRotate_rowRotate 1 3 b).trans (rowRotate_four b),
      (rowRotate_rowRotate 3 1 b).trans (rowRotate_four b)⟩,
    fun b => ⟨colMix_colMix mixWord_polyI_mixWord_polyF b, colMix_colMix mixWord_polyF_mixWord_polyI b⟩,
    addKey_addKey, rowRotate_substitute⟩

end Sys2Proof.Proofs

/-! The schedule operations micro-step by micro-step (43_key_schedule.md R143 to R150): acceptance, the word
each micro-step writes, and the result of a whole phase. -/

namespace Sys2Proof.Machine

/-! ### Acceptance -/

/-- The write of a word that names no command: refused for BUSY first, then for what is wrong with
the word. -/
theorem exec_wr_ctrl_of_rejected {v : Word} {r : CtrlReject} (h : decodeCtrl v = .error r) (s : State) :
    exec (.wr 0x00 v) s = unlessBusy s (refuse (rejectCause r)) := by
  have hdispatch : dispatch v = refuse (rejectCause r) := funext fun s => by simp [dispatch, h]
  exact congrArg (unlessBusy s) hdispatch

theorem exec_wr_ctrl_of_malformed {v : Word} (h : ctrlMalformed v = true) {s : State}
    (hb : s.busy = false) : exec (.wr 0x00 v) s = .next (s.raise .illegalCmd) := by
  have hd : decodeCtrl v = .error .illegalCmd := by simp [decodeCtrl, h]
  rw [exec_wr_ctrl_of_rejected hd, unlessBusy_of_idle hb]
  rfl

theorem ctrlMalformed_of_reserved {v : Word} (h : v.getLsbD 3 = true ∨ v.extractLsb' 6 26 ≠ 0) :
    ctrlMalformed v = true := by
  obtain h3 | hi := h
  · simp [ctrlMalformed, h3]
  · simp [ctrlMalformed, show (v.extractLsb' 6 26 != 0#26) = true from bne_iff_ne.mpr hi]

theorem ctrlMalformed_of_ks {v : Word} (hcmd : ctrlCmd v ≠ 1) (hks : ctrlKs v ≠ 0) :
    ctrlMalformed v = true := by
  have hk : (ctrlCmd v != 1#3 && ctrlKs v != 0#2) = true :=
    Bool.and_eq_true_iff.mpr ⟨bne_iff_ne.mpr hcmd, bne_iff_ne.mpr hks⟩
  simp [ctrlMalformed, hk]

theorem exec_expand_of_busy {s : State} (hb : s.busy = true) (ks : BitVec 2) :
    exec (.expand ks) s = .next (s.raise .busyViolation) :=
  execCommand_of_busy hb (.expand ks)

theorem exec_expand_three (s : State) : exec (.expand 3) s = unlessBusy s (refuse .illegalKeysize) := rfl

theorem exec_expand_code {s : State} (hb : s.busy = false) (k : KeySize) :
    exec (.expand k.code) s = .next (s.acceptExpand k) := by
  rw [exec, execExpand, unlessBusy_of_idle hb, ofCode_code]

theorem exec_invsched_of_idle {s : State} (hb : s.busy = false) :
    exec .invsched s = requireTag .fwd State.acceptInvsched s :=
  unlessBusy_of_idle hb _

theorem expand_word_eq_ctrlWord (ks : BitVec 2) :
    (0x00000001 + 16 * ks.setWidth 32 : Word) = ctrlWord 1 ks := by
  revert ks
  decide

/-- KS = 3 is refused for its key size both as a word and as a row. -/
theorem exec_wr_ctrl_expand (ks : BitVec 2) (s : State) :
    exec (.wr 0x00 (0x00000001 + 16 * ks.setWidth 32)) s = exec (.expand ks) s := by
  rw [expand_word_eq_ctrlWord]
  obtain rfl | hks := eq_or_ne ks 3
  · exact (exec_wr_ctrl_of_rejected (r := .illegalKeysize) (by decide) s).trans (exec_expand_three s).symm
  · have hwf : (Instr.expand ks).wellFormed = true := by simpa [Instr.wellFormed] using hks
    exact exec_wr_ctrl (decode_encode hwf) s

/-! ### The micro-steps -/

theorem KeySize.nr_eq (k : KeySize) : k.nr = 10 + 2 * k.code.toNat := by
  rw [KeySize.nr, KeySize.nk]
  omega

/-- The word of R144, case by case as the rule writes it. -/
theorem State.expandWord_eq_ite (s : State) : s.expandWord =
    if s.ki.val < s.nk.nk then schedWord s.keyWords s.ki.val
    else s.wordNkBack ^^^
      (if s.ki.val % s.nk.nk = 0 then subWord sbox (rotByte s.prevWord) ^^^ rcon (s.ki.val / s.nk.nk - 1)
        else if 6 < s.nk.nk ∧ s.ki.val % s.nk.nk = 4 then subWord sbox s.prevWord
        else s.prevWord) := by
  unfold State.expandWord expandSelect
  split_ifs <;> rfl

end Sys2Proof.Machine

namespace Sys2Proof.Proofs

open Sys2Proof.Machine

/-- Settles O15: the word of EXPAND decodes to its row, for KS = 3 into the same refusal; the rest is
`execExpand` after its BUSY check. -/
theorem expandAcceptance : Obligations.ExpandAcceptance := by
  refine fun s => ⟨fun ks => exec_wr_ctrl_expand ks s, fun hb ks => exec_expand_of_busy hb ks,
    fun hb v _ hv => exec_wr_ctrl_of_malformed (ctrlMalformed_of_reserved hv) hb, fun hb => ?_,
    fun hb k => exec_expand_code hb k⟩
  rw [exec_expand_three, unlessBusy_of_idle hb]
  rfl

/-- Settles O18: the word of INVSCHED decodes to its row; the rest is `requireTag` after the BUSY check. -/
theorem invschedAcceptance : Obligations.InvschedAcceptance := by
  refine fun s => ⟨exec_wr_ctrl (i := .invsched) (by decide) s, fun hb => execCommand_of_busy hb .invsched,
    fun hb v hcmd hv => exec_wr_ctrl_of_malformed ?_ hb,
    fun hb ht => (exec_invsched_of_idle hb).trans (requireTag_of_ne ht _),
    fun hb ht => (exec_invsched_of_idle hb).trans (requireTag_of_eq ht _)⟩
  obtain h3 | hi | hks := hv
  · exact ctrlMalformed_of_reserved (.inl h3)
  · exact ctrlMalformed_of_reserved (.inr hi)
  · have hne : ctrlCmd v ≠ 1 := by simp [ctrlCmd, hcmd]
    exact ctrlMalformed_of_ks hne hks

/-- Settles O23, from the two endings of the micro-step and its word case by case. -/
theorem expandMicroStep : Obligations.ExpandMicroStep := by
  intro s ho nk last i prev v
  have hv : s.expandWord = v := s.expandWord_eq_ite
  rw [← hv]
  exact ⟨fun hk => ⟨s.ki + 1, State.ki_add_one hk, (CoreEffect.expandNext ho hk).coreStep_eq⟩,
    fun hk => (CoreEffect.expandEnd ho hk).coreStep_eq⟩

/-- Settles O24, from the two endings of the micro-step. -/
theorem invschedComputeMicroStep : Obligations.InvschedComputeMicroStep := by
  intro s ho hp
  rw [← s.nk.nr_eq]
  exact ⟨fun hk => ⟨s.ki + 1, State.ki_add_one hk, (CoreEffect.computeNext ho hp hk).coreStep_eq⟩,
    fun hk => (CoreEffect.computeEnd ho hp hk).coreStep_eq⟩

/-- Settles O25, from the two endings of the micro-step. -/
theorem invschedCopyMicroStep : Obligations.InvschedCopyMicroStep := by
  intro s ho hp
  rw [← s.nk.nr_eq]
  exact ⟨fun hk => ⟨s.ki + 1, State.ki_add_one hk, (CoreEffect.copyNext ho hp hk).coreStep_eq⟩,
    fun hk => (CoreEffect.copyEnd ho hp hk).coreStep_eq⟩

end Sys2Proof.Proofs

/-! What the schedule micro-steps leave unchanged (43_key_schedule.md R144, R148, R149). -/

namespace Sys2Proof.Machine

/-- The registers that no schedule micro-step writes are those of s. -/
structure KeepsOutsideSchedule (s t : State) : Prop where
  key : t.key = s.key
  blk : t.blk = s.blk
  rc : t.rc = s.rc
  nk : t.nk = s.nk
  dir : t.dir = s.dir
  err : t.err = s.err
  errcode : t.errcode = s.errcode
  pins : t.pins = s.pins
  rdata : t.rdata = s.rdata
  pending : t.pending = s.pending
  fresh : t.fresh = s.fresh

/-! ### The KSEL rows -/

theorem exists_expandWith_of_ksel {i : Instr} {s t : State}
    (hi : i = .keycopy ∨ i = .plain ∨ i = .rotsub ∨ i = .subonly) (h : exec i s = .next t) :
    ∃ v, t = s.expandWith v := by
  obtain rfl | rfl | rfl | rfl := hi
  all_goals exact ⟨_, (Host.Outcome.next.inj h).symm⟩

theorem State.expandWith_of_lt {s : State} (hk : s.ki.val < s.nk.last) (v : Word) :
    s.expandWith v = { s.putSchedWord s.ki v with ki := s.ki + 1 } :=
  if_pos hk

theorem State.expandWith_keeps (v : Word) (s : State) : KeepsOutsideSchedule s (s.expandWith v) := by
  unfold State.expandWith
  split <;> exact ⟨rfl, rfl, rfl, rfl, rfl, rfl, rfl, rfl, rfl, rfl, rfl⟩

theorem State.expandWith_t_ph (v : Word) (s : State) :
    (s.expandWith v).t = s.t ∧ (s.expandWith v).ph = s.ph := by
  unfold State.expandWith
  split <;> exact ⟨rfl, rfl⟩

/-! ### A turn of the CORE -/

namespace CoreEffect
variable {s t : State} (h : CoreEffect s t)
include h

theorem keepsOutsideSchedule (hne : s.op ≠ .cipher) : KeepsOutsideSchedule s t := by
  obtain ⟨hblk, hrc⟩ := h.blk_rc_eq hne
  have hport : t.err = s.err ∧ t.errcode = s.errcode ∧ t.pins = s.pins ∧ t.rdata = s.rdata
      ∧ t.pending = s.pending ∧ t.fresh = s.fresh := by
    cases h <;> exact ⟨rfl, rfl, rfl, rfl, rfl, rfl⟩
  obtain ⟨herr, hcode, hpins, hrdata, hpending, hfresh⟩ := hport
  exact ⟨h.key_eq, hblk, hrc, h.nk_eq, h.dir_eq, herr, hcode, hpins, hrdata, hpending, hfresh⟩

theorem w_eq_of_compute (ho : s.op = .invsched) (hp : s.ph = .compute) : t.w = s.w :=
  Vector.ext fun j hj => of_not_not fun hne => by
    have hphase := (h.phase_of_sched_ne (j := ⟨j, hj⟩) hne).2
    simp [ho, hp] at hphase

theorem t_eq_of_copy (hp : s.ph = .copy) : t.t = s.t :=
  Vector.ext fun j hj => of_not_not fun hne => by
    have hphase := (h.phase_of_scratch_ne (j := ⟨j, hj⟩) hne).2
    simp [hp] at hphase

end CoreEffect

end Sys2Proof.Machine

namespace Sys2Proof.Proofs

open Sys2Proof.Machine

/-- Settles O28: every KSEL row ends as `State.expandWith`, and a word of W or T that a turn of the CORE
changes tells the phase and KI. -/
theorem keyExpanderStepsFrame : Obligations.KeyExpanderStepsFrame := by
  refine ⟨fun i s t hi h => ?_, fun s t ho h => ?_⟩
  · obtain ⟨v, rfl⟩ := exists_expandWith_of_ksel hi h
    obtain ⟨hkey, hblk, hrc, hnk, hdir, herr, hcode, hpins, hrdata, hpending, hfresh⟩ :=
      s.expandWith_keeps v
    obtain ⟨ht, hph⟩ := s.expandWith_t_ph v
    refine ⟨hkey, hblk, ht, hrc, hnk, hph, hdir, herr, hcode, hpins, hrdata, hpending, hfresh,
      fun j hj => of_not_not fun hne => ?_, fun hk => ?_⟩
    · rw [State.expandWith_w] at hne
      exact hj (eq_of_getElem_set_ne hne)
    · rw [State.expandWith_of_lt hk]
      exact ⟨rfl, rfl, rfl, rfl⟩
  · have he : CoreEffect s t := coreStep_effect h
    obtain ⟨hkey, hblk, hrc, hnk, hdir, herr, hcode, hpins, hrdata, hpending, hfresh⟩ :=
      he.keepsOutsideSchedule (by simp [ho])
    exact ⟨hkey, hblk, hrc, hnk, hdir, herr, hcode, hpins, hrdata, hpending, hfresh,
      he.w_eq_of_compute ho, he.t_eq_of_copy,
      fun j hj => ⟨of_not_not fun hne => hj (he.phase_of_sched_ne hne).1,
        of_not_not fun hne => hj (he.phase_of_scratch_ne hne).1⟩⟩

end Sys2Proof.Proofs

/-! The results of EXPAND and INVSCHED (43_key_schedule.md R145, R150): each phase of micro-steps stores the
words of one list from word 0 to word LAST. -/

namespace Sys2Proof.Machine

/-! ### Turns one after another -/

@[simp] theorem andThen_next (s : State) (f : State → Result) : andThen (.next s) f = f s := rfl

theorem andThen_assoc (r : Result) (f g : State → Result) :
    andThen (andThen r f) g = andThen r fun s => andThen (f s) g := by
  cases r <;> rfl

theorem coreTurns_one (s : State) : coreTurns 1 s = coreStep s := by
  rw [coreTurns]
  cases coreStep s <;> rfl

theorem coreTurns_add (m n : Nat) (s : State) :
    coreTurns (m + n) s = andThen (coreTurns m s) (coreTurns n) := by
  induction m generalizing s with
  | zero => rw [Nat.zero_add]; rfl
  | succ m ih =>
    rw [Nat.succ_add, coreTurns, coreTurns, andThen_assoc]
    exact congrArg (andThen (coreStep s)) (funext ih)

/-! ### A phase -/

/-- `mk v i` is the state with v in the memory that a phase fills and KI = i. The micro-step at i stores word
i of `ws`, given the words before it, and goes on to i + 1; the one at LAST stores its word and goes on to
`next`. -/
structure Fills (ws : List Word) (k : KeySize) (mk : Vector Word 60 → Fin 60 → State)
    (next : Vector Word 60 → State) : Prop where
  last_lt_length : k.last < ws.length
  store {v : Vector Word 60} {i : Fin 60} (hi : i.val < k.last)
    (hv : v.toList.take i.val = ws.take i.val) :
    coreStep (mk v i) = .next (mk (v.set i.val (schedWord ws i.val) i.isLt) (i + 1))
  storeLast {v : Vector Word 60} {i : Fin 60} (hi : k.last = i.val)
    (hv : v.toList.take i.val = ws.take i.val) :
    coreStep (mk v i) = .next (next (v.set i.val (schedWord ws i.val) i.isLt))

theorem take_succ_eq_append_schedWord {ws : List Word} {i : Nat} (hi : i < ws.length) :
    ws.take (i + 1) = ws.take i ++ [schedWord ws i] := by
  rw [List.take_succ_eq_append_getElem hi, schedWord, List.getD_eq_getElem _ _ hi]

theorem take_set_schedWord {ws : List Word} {v : Vector Word 60} {i : Fin 60} (hi : i.val < ws.length)
    (hv : v.toList.take i.val = ws.take i.val) :
    (v.set i.val (schedWord ws i.val) i.isLt).toList.take (i.val + 1) = ws.take (i.val + 1) := by
  rw [toList_set_take_succ, hv, take_succ_eq_append_schedWord hi]

namespace Fills
variable {ws : List Word} {k : KeySize} {mk : Vector Word 60 → Fin 60 → State}
  {next : Vector Word 60 → State} (hf : Fills ws k mk next)
include hf

/-- The rest of a phase, by induction on how many words come after the one at i. -/
theorem coreTurns_rest {n : Nat} {v : Vector Word 60} {i : Fin 60} (hn : i.val + n = k.last)
    (hv : v.toList.take i.val = ws.take i.val) : ∃ w : Vector Word 60,
    coreTurns (n + 1) (mk v i) = .next (next w)
    ∧ w.toList.take (k.last + 1) = ws.take (k.last + 1)
    ∧ ∀ j : Fin 60, k.last < j.val → w[j] = v[j] := by
  induction n generalizing v i with
  | zero =>
    have hi : k.last = i.val := hn.symm
    have hlen : i.val < ws.length := hi ▸ hf.last_lt_length
    refine ⟨v.set i.val (schedWord ws i.val) i.isLt, ?_, ?_, fun j hj => ?_⟩
    · rw [coreTurns_one, hf.storeLast hi hv]
    · rw [hi, take_set_schedWord hlen hv]
    · exact Vector.getElem_set_ne i.isLt j.isLt (by omega)
  | succ n ih =>
    have hi : i.val < k.last := by omega
    have hlen : i.val < ws.length := hi.trans hf.last_lt_length
    have hsucc : (i + 1).val = i.val + 1 := Fin.val_add_one_of_lt' (by have := k.last_lt; omega)
    obtain ⟨w, hturns, hwords, habove⟩ :=
      ih (v := v.set i.val (schedWord ws i.val) i.isLt) (i := i + 1) (by omega)
        (by rw [hsucc, take_set_schedWord hlen hv])
    refine ⟨w, ?_, hwords, fun j hj => ?_⟩
    · rw [coreTurns, hf.store hi hv]
      exact hturns
    · rw [habove j hj]
      exact Vector.getElem_set_ne i.isLt j.isLt (by omega)

theorem coreTurns_all (v : Vector Word 60) : ∃ w : Vector Word 60,
    coreTurns (k.last + 1) (mk v 0) = .next (next w)
    ∧ w.toList.take (k.last + 1) = ws.take (k.last + 1)
    ∧ ∀ j : Fin 60, k.last < j.val → w[j] = v[j] :=
  hf.coreTurns_rest (Nat.zero_add k.last) rfl

end Fills

/-! ### The three phases -/

namespace State

/-- W and KI replaced. -/
def withSched (v : Vector Word 60) (i : Fin 60) (s : State) : State := { s with w := v, ki := i }

/-- T and KI replaced. -/
def withScratch (v : Vector Word 60) (i : Fin 60) (s : State) : State := { s with t := v, ki := i }

/-- The end of EXPAND with v in W. -/
def expanded (v : Vector Word 60) (s : State) : State := { (s.withSched v 0).finish with tag := .fwd }

/-- The end of the compute phase with v in T. -/
def computed (v : Vector Word 60) (s : State) : State := { s.withScratch v 0 with ph := .copy }

@[simp] theorem computed_nk (v : Vector Word 60) (s : State) : (s.computed v).nk = s.nk := rfl

/-- The end of INVSCHED with v in W. -/
def inverted (v : Vector Word 60) (s : State) : State :=
  { (s.withSched v 0).finish with ph := .compute, tag := .inv }

variable {s : State}

theorem length_forwardOf (key : List Word) : (s.forwardOf key).length = s.nk.last + 1 := by
  rw [forwardOf_eq, length_expandTo]

theorem expandWord_eq_schedWord (hk : s.ki.val ≤ s.nk.last)
    (h : s.schedTo s.ki.val = (s.forwardOf s.keyWords).take s.ki.val) :
    s.expandWord = schedWord (s.forwardOf s.keyWords) s.ki.val := by
  have hnext := expand_progress rfl hk h
  rw [schedTo_putSchedWord_succ, h, take_succ_eq_append_schedWord (by rw [length_forwardOf]; omega)]
    at hnext
  simpa using hnext

theorem expandWord_withSched {v : Vector Word 60} {i : Fin 60} (hi : i.val ≤ s.nk.last)
    (hv : v.toList.take i.val = (s.forwardOf s.keyWords).take i.val) :
    (s.withSched v i).expandWord = schedWord (s.forwardOf s.keyWords) i.val :=
  expandWord_eq_schedWord (s := s.withSched v i) hi hv

/-- EXPAND fills W with the forward schedule of KEY (R144). -/
theorem fills_expand (ho : s.op = .expand) :
    Fills (s.forwardOf s.keyWords) s.nk (fun v i => s.withSched v i) (fun v => s.expanded v) where
  last_lt_length := by rw [length_forwardOf]; omega
  store {v i} hi hv := by
    rw [← expandWord_withSched hi.le hv]
    exact (CoreEffect.expandNext (s := s.withSched v i) ho hi).coreStep_eq
  storeLast {v i} hi hv := by
    rw [← expandWord_withSched hi.ge hv]
    exact (CoreEffect.expandEnd (s := s.withSched v i) ho hi.le).coreStep_eq

theorem length_invsched (ws : List Word) (nr : Nat) : (invsched ws nr).length = 4 * (nr + 1) := by
  simp [invsched]

theorem schedWord_invsched (ws : List Word) {nr j : Nat} (hj : j < 4 * (nr + 1)) :
    schedWord (invsched ws nr) j = invschedWord ws nr j := by
  simp [schedWord, invsched, hj]

/-- The compute phase fills T with the inverse schedule of W, which it does not write (R148). -/
theorem fills_compute (ho : s.op = .invsched) (hp : s.ph = .compute) :
    Fills (invsched s.sched s.nk.nr) s.nk (fun v i => s.withScratch v i) (fun v => s.computed v) where
  last_lt_length := by rw [length_invsched, ← KeySize.last_add_one]; omega
  store {v i} hi _ := by
    rw [schedWord_invsched s.sched (by have := s.nk.last_add_one; omega)]
    exact (CoreEffect.computeNext (s := s.withScratch v i) ho hp hi).coreStep_eq
  storeLast {v i} hi _ := by
    rw [schedWord_invsched s.sched (by have := s.nk.last_add_one; omega)]
    exact (CoreEffect.computeEnd (s := s.withScratch v i) ho hp hi.le).coreStep_eq

theorem schedWord_toList (v : Vector Word 60) (i : Fin 60) : schedWord v.toList i.val = v[i] := by
  simp [schedWord]

/-- The copy phase fills W with T (R149). -/
theorem fills_copy (ho : s.op = .invsched) (hp : s.ph = .copy) :
    Fills s.t.toList s.nk (fun v i => s.withSched v i) (fun v => s.inverted v) where
  last_lt_length := by simpa using s.nk.last_lt
  store {v i} hi _ := by
    rw [schedWord_toList]
    exact (CoreEffect.copyNext (s := s.withSched v i) ho hp hi).coreStep_eq
  storeLast {v i} hi _ := by
    rw [schedWord_toList]
    exact (CoreEffect.copyEnd (s := s.withSched v i) ho hp hi.le).coreStep_eq

theorem withSched_eq_self (hk : s.ki = 0) : s.withSched s.w 0 = s := by
  rw [← hk]
  rfl

theorem withScratch_eq_self (hk : s.ki = 0) : s.withScratch s.t 0 = s := by
  rw [← hk]
  rfl

theorem coreTurns_expand (ho : s.op = .expand) (hk : s.ki = 0) : ∃ w : Vector Word 60,
    coreTurns (s.nk.last + 1) s = .next (s.expanded w)
    ∧ w.toList.take (s.nk.last + 1) = s.forwardOf s.keyWords
    ∧ ∀ j : Fin 60, s.nk.last < j.val → w[j] = s.w[j] := by
  obtain ⟨w, hturns, hwords, habove⟩ := (fills_expand ho).coreTurns_all s.w
  rw [withSched_eq_self hk] at hturns
  exact ⟨w, hturns, hwords.trans (take_forwardOf s s.keyWords), habove⟩

theorem coreTurns_compute (ho : s.op = .invsched) (hp : s.ph = .compute) (hk : s.ki = 0) :
    ∃ x : Vector Word 60, coreTurns (s.nk.last + 1) s = .next (s.computed x)
    ∧ x.toList.take (s.nk.last + 1) = invsched s.sched s.nk.nr
    ∧ ∀ j : Fin 60, s.nk.last < j.val → x[j] = s.t[j] := by
  obtain ⟨x, hturns, hwords, habove⟩ := (fills_compute ho hp).coreTurns_all s.t
  rw [withScratch_eq_self hk] at hturns
  exact ⟨x, hturns, hwords.trans (List.take_of_length_le (length_invsched _ _).le), habove⟩

theorem coreTurns_copy (ho : s.op = .invsched) (hp : s.ph = .copy) (hk : s.ki = 0) :
    ∃ w : Vector Word 60, coreTurns (s.nk.last + 1) s = .next (s.inverted w)
    ∧ w.toList.take (s.nk.last + 1) = s.t.toList.take (s.nk.last + 1)
    ∧ ∀ j : Fin 60, s.nk.last < j.val → w[j] = s.w[j] := by
  obtain ⟨w, hturns, hwords, habove⟩ := (fills_copy ho hp).coreTurns_all s.w
  rw [withSched_eq_self hk] at hturns
  exact ⟨w, hturns, hwords, habove⟩

end State

/-! ### The schedules of the first words -/

/-- `expand` reads only the first Nk words of its key. -/
theorem expandNext_take_key (key : List Word) (nk : Nat) (ws : List Word) :
    expandNext (key.take nk) nk ws = expandNext key nk ws := by
  by_cases h : ws.length < nk
  · simp only [expandNext, h, if_true, schedWord_take h]
  · simp only [expandNext, h, if_false]

theorem expandTo_take_key (key : List Word) (nk n : Nat) :
    expandTo (key.take nk) nk n = expandTo key nk n := by
  induction n with
  | zero => rfl
  | succ n ih => rw [expandTo, expandTo, ih, expandNext_take_key]

theorem State.expand_take_key (s : State) (key : List Word) :
    expand (key.take s.nk.nk) s.nk.nk = s.forwardOf key := by
  rw [State.forwardOf, expand, expand, expandTo_take_key]

theorem invsched_take (ws : List Word) (nr : Nat) :
    invsched (ws.take (4 * (nr + 1))) nr = invsched ws nr :=
  List.map_congr_left fun j _ => invschedWord_take ws nr j

end Sys2Proof.Machine

namespace Sys2Proof.Proofs

open Sys2Proof.Machine

/-- Settles O39: the micro-steps fill W with the forward schedule. -/
theorem expandResult : Obligations.ExpandResult := by
  intro s k hs hb
  obtain ⟨hrc, -, -⟩ := hs.idle_cleared hb
  obtain ⟨w, hturns, hwords, habove⟩ := State.coreTurns_expand (s.acceptExpand_op k) (s.acceptExpand_ki k)
  rw [State.acceptExpand_nk] at hturns hwords habove
  have hschedule : expand (s.key.toList.take k.nk) k.nk = (s.acceptExpand k).forwardOf s.keyWords :=
    (s.acceptExpand k).expand_take_key s.keyWords
  refine ⟨w, ?_, hwords.trans hschedule.symm, ?_, habove⟩
  · rw [exec_expand_code hb, andThen_next, hturns, ← hrc]
    rfl
  · rw [hschedule, State.length_forwardOf, State.acceptExpand_nk, KeySize.last_add_one]

/-- Settles O40: the compute phase fills T with the inverse schedule of W, the copy phase W with T. -/
theorem invschedResult : Obligations.InvschedResult := by
  intro s hs hb ht
  obtain ⟨hrc, -, -⟩ := hs.idle_cleared hb
  obtain ⟨x, hcompute, hx, hxabove⟩ := State.coreTurns_compute s.acceptInvsched_op s.acceptInvsched_ph
    s.acceptInvsched_ki
  obtain ⟨w, hcopy, hw, hwabove⟩ := State.coreTurns_copy (s := s.acceptInvsched.computed x) rfl rfl rfl
  have hinv : x.toList.take (s.nk.last + 1) = invsched (s.w.toList.take (s.nk.last + 1)) s.nk.nr := by
    rw [s.nk.last_add_one, invsched_take]
    exact hx
  refine ⟨w, x, ?_, hw.trans hinv, hinv, fun j hj => ⟨hwabove j hj, hxabove j hj⟩⟩
  rw [State.acceptInvsched_nk] at hcompute
  rw [State.computed_nk, State.acceptInvsched_nk] at hcopy
  rw [exec_invsched_of_idle hb, requireTag_of_eq ht, andThen_next, Nat.two_mul, coreTurns_add, hcompute,
    andThen_next, hcopy, ← hrc]
  rfl

end Sys2Proof.Proofs

/-! Decryption undoes encryption (44_round_driver.md R169): each round of one direction undoes a round of the
other, taken in reverse order, once column mixing is moved past the addition of the round key. -/

namespace Sys2Proof.Machine

/-! ### The two directions -/

/-- The other direction. -/
def Dir.opposite : Dir → Dir
  | .forward => .inverse
  | .inverse => .forward

/-- The part of a round before column mixing: substitution, then row rotation (R135). -/
def Dir.shuffle (d : Dir) (b : Block) : Block := rowRotate d.shift (substitute d.table b)

theorem fullRound_eq (d : Dir) (k b : Block) :
    fullRound d k b = addKey (colMix d.poly (d.shuffle b)) k := rfl

theorem lastRound_eq (d : Dir) (k b : Block) : lastRound d k b = addKey (d.shuffle b) k := rfl

theorem Dir.opposite_table_leftInverse (d : Dir) : Function.LeftInverse d.opposite.table d.table := by
  cases d with
  | forward => exact invSbox_sbox
  | inverse => exact sbox_invSbox

theorem Dir.opposite_shift_add_shift (d : Dir) : d.opposite.shift + d.shift = 4 := by cases d <;> rfl

theorem Dir.mixWord_opposite_poly (d : Dir) (w : Word) :
    mixWord d.opposite.poly (mixWord d.poly w) = w := by
  cases d with
  | forward => exact mixWord_polyI_mixWord_polyF w
  | inverse => exact mixWord_polyF_mixWord_polyI w

/-- Substitution and row rotation commute, so each meets its own inverse. -/
theorem Dir.opposite_shuffle_shuffle (d : Dir) (b : Block) : d.opposite.shuffle (d.shuffle b) = b := by
  rw [shuffle, shuffle, ← rowRotate_substitute, substitute_substitute d.opposite_table_leftInverse,
    rowRotate_rowRotate, d.opposite_shift_add_shift, rowRotate_four]

theorem colMix_addKey (p : Word) (b k : Block) :
    colMix p (addKey b k) = addKey (colMix p b) (colMix p k) :=
  Vector.ext fun c hc => by
    rw [getElem_addKey, getElem_colMix, getElem_colMix, getElem_colMix, getElem_addKey, mixWord_xor_right]

/-- A full round with the mixed round key takes back the column mixing and the key of the full round before
it, and leaves that round's shuffle for the next one. -/
theorem fullRound_opposite (d : Dir) (k b : Block) :
    fullRound d.opposite (colMix d.opposite.poly k) (d.shuffle (addKey (colMix d.poly b) k)) = b := by
  rw [fullRound_eq, d.opposite_shuffle_shuffle, colMix_addKey, colMix_colMix d.mixWord_opposite_poly,
    addKey_addKey]

/-! ### Schedules of the two directions -/

/-- The slices of w' are those of w in reverse order, mixed with the polynomial of w' but at the two ends
(43_key_schedule.md R146). -/
def ReversedSchedule (d : Dir) (nr : Nat) (w w' : List Word) : Prop :=
  ∀ r, r ≤ nr → slice w' r =
    if r = 0 ∨ r = nr then slice w (nr - r) else colMix d.opposite.poly (slice w (nr - r))

theorem getElem_slice (w : List Word) (r : Nat) {c : Nat} (hc : c < 4) :
    (slice w r)[c] = schedWord w (4 * r + c) := by
  match c, hc with
  | 0, _ | 1, _ | 2, _ | 3, _ => rfl

theorem reversedSchedule_invsched (w : List Word) (nr : Nat) :
    ReversedSchedule .forward nr w (invsched w nr) := by
  intro r hr
  refine Vector.ext fun c hc => ?_
  have hdiv : (4 * r + c) / 4 = r := by omega
  have hmod : (4 * r + c) % 4 = c := by omega
  rw [getElem_slice _ _ hc, State.schedWord_invsched w (by omega), invschedWord, hdiv, hmod]
  split
  · rw [getElem_slice _ _ hc]
  · rw [getElem_colMix, getElem_slice _ _ hc]
    rfl

/-- Mixing the slices between the ends a second time gives the schedule back. -/
theorem ReversedSchedule.symm {d : Dir} {nr : Nat} {w w' : List Word} (h : ReversedSchedule d nr w w') :
    ReversedSchedule d.opposite nr w' w := by
  intro r hr
  rw [h (nr - r) (Nat.sub_le nr r), Nat.sub_sub_self hr]
  by_cases hend : r = 0 ∨ r = nr
  · rw [if_pos hend, if_pos (by omega)]
  · rw [if_neg hend, if_neg (by omega), colMix_colMix d.opposite.mixWord_opposite_poly]

namespace ReversedSchedule
variable {d : Dir} {nr : Nat} {w w' : List Word} (h : ReversedSchedule d nr w w')
include h

/-- After r full rounds of the opposite direction what is left of the cipher is its first nr - 1 - r full
rounds and the shuffle that follows them. -/
theorem roundsUpTo_cipher (x : Block) {r : Nat} (hr : r < nr) :
    roundsUpTo d.opposite w' (cipher x w nr d) r = d.shuffle (roundsUpTo d w x (nr - 1 - r)) := by
  induction r with
  | zero =>
    have hkey : slice w' 0 = slice w nr := by simpa using h 0 (Nat.zero_le nr)
    rw [roundsUpTo, hkey, cipher, lastRound_eq, addKey_addKey]
    rfl
  | succ r ih =>
    obtain ⟨m, hm⟩ : ∃ m, nr - 1 - r = m + 1 := ⟨nr - 1 - r - 1, by omega⟩
    have hkey : slice w' (r + 1) = colMix d.opposite.poly (slice w (m + 1)) := by
      rw [h (r + 1) hr.le, if_neg (by omega), show nr - (r + 1) = m + 1 by omega]
    rw [roundsUpTo, ih (by omega), hm, roundsUpTo, hkey, fullRound_eq d, fullRound_opposite,
      show nr - 1 - (r + 1) = m by omega]

theorem cipher_cipher (hnr : 0 < nr) (x : Block) : cipher (cipher x w nr d) w' nr d.opposite = x := by
  have hkey : slice w' nr = slice w 0 := by simpa using h nr le_rfl
  rw [cipher, h.roundsUpTo_cipher x (by omega), Nat.sub_self, lastRound_eq, d.opposite_shuffle_shuffle,
    hkey, roundsUpTo, addKey_addKey]

end ReversedSchedule

end Sys2Proof.Machine

namespace Sys2Proof.Proofs

open Sys2Proof.Machine

/-- Settles O42: the two schedules are reversals of each other. It is true of every schedule, not only
of an expanded one. -/
theorem decryptUndoesEncrypt : Obligations.DecryptUndoesEncrypt := by
  intro key k x
  have hrev : ReversedSchedule .forward k.nr (expand key k.nk) (invsched (expand key k.nk) k.nr) :=
    reversedSchedule_invsched _ _
  exact ⟨hrev.cipher_cipher k.nr_pos x, hrev.symm.cipher_cipher k.nr_pos x⟩

end Sys2Proof.Proofs

/-! The cipher commands (44_round_driver.md R163 to R165, R167): acceptance, the micro-step, and the result of
all micro-steps. -/

namespace Sys2Proof.Machine

/-! ### Acceptance -/

/-- The command that asks for a direction. -/
def Dir.command : Dir → Command
  | .forward => .encrypt
  | .inverse => .decrypt

theorem exec_cipher_of_idle {s : State} (hb : s.busy = false) (d : Dir) :
    exec d.command.toInstr s = requireTag d.kind (State.acceptCipher d) s := by
  cases d <;> exact unlessBusy_of_idle hb _

theorem exec_cipher_of_tag {s : State} {d : Dir} (hb : s.busy = false) (ht : s.tag = d.kind) :
    exec d.command.toInstr s = .next (s.acceptCipher d) :=
  (exec_cipher_of_idle hb d).trans (requireTag_of_eq ht _)

theorem exec_cipher_of_tag_ne {s : State} {d : Dir} (hb : s.busy = false) (ht : s.tag ≠ d.kind) :
    exec d.command.toInstr s = .next (s.raise .schedMismatch) :=
  (exec_cipher_of_idle hb d).trans (requireTag_of_ne ht _)

theorem exec_wr_ctrl_of_bad_fields {v : Word} (hcmd : ctrlCmd v ≠ 1)
    (hv : v.getLsbD 3 = true ∨ v.extractLsb' 6 26 ≠ 0 ∨ v.extractLsb' 4 2 ≠ 0) {s : State}
    (hb : s.busy = false) : exec (.wr 0x00 v) s = .next (s.raise .illegalCmd) := by
  refine exec_wr_ctrl_of_malformed ?_ hb
  obtain h3 | hi | hks := hv
  · exact ctrlMalformed_of_reserved (.inl h3)
  · exact ctrlMalformed_of_reserved (.inr hi)
  · exact ctrlMalformed_of_ks hcmd hks

/-! ### All micro-steps -/

theorem slice_take {w : List Word} {n r : Nat} (h : 4 * r + 3 < n) : slice (w.take n) r = slice w r :=
  Vector.ext fun c hc => by rw [getElem_slice _ _ hc, getElem_slice _ _ hc, schedWord_take (by omega)]

theorem roundsUpTo_take (d : Dir) {w : List Word} {n : Nat} (x : Block) {r : Nat} (h : 4 * r + 3 < n) :
    roundsUpTo d (w.take n) x r = roundsUpTo d w x r := by
  induction r with
  | zero => rw [roundsUpTo, roundsUpTo, slice_take h]
  | succ r ih => rw [roundsUpTo, roundsUpTo, slice_take h, ih (by omega)]

/-- The cipher reads only the Nr + 1 slices of its schedule. -/
theorem cipher_take (x : Block) (w : List Word) (nr : Nat) (d : Dir) :
    cipher x (w.take (4 * (nr + 1))) nr d = cipher x w nr d := by
  rw [cipher, cipher, slice_take (by omega), roundsUpTo_take d x (by omega)]

namespace State

/-- S and RC replaced. -/
def withRound (b : Block) (r : Fin 15) (s : State) : State := { s with blk := b, rc := r }

/-- The end of a cipher operation with b in S. -/
def ciphered (b : Block) (s : State) : State := (s.withRound b 0).finish

variable {s : State} (ho : s.op = .cipher) (hrc : s.rc = 0)
include ho hrc

/-- The micro-steps of the initial addition and r full rounds, by induction on the rounds. -/
theorem coreTurns_rounds {r : Nat} (hr : r < s.nk.nr) : ∃ q : Fin 15, q.val = r + 1
    ∧ coreTurns (r + 1) s = .next (s.withRound (roundsUpTo s.dir s.sched s.blk r) q) := by
  induction r with
  | zero => exact ⟨1, rfl, by rw [coreTurns_one, coreStep_cipher_init ho (by simp [hrc])]; rfl⟩
  | succ r ih =>
    obtain ⟨q, hq, hturns⟩ := ih (by omega)
    have hlt : q.val < s.nk.nr := by omega
    refine ⟨q + 1, (rc_add_one (s := s.withRound s.blk q) hlt).trans (congrArg (· + 1) hq), ?_⟩
    rw [coreTurns_add (r + 1) 1, hturns, andThen_next, coreTurns_one,
      coreStep_cipher_full (s := s.withRound _ q) ho (by simp [withRound, hq]) hlt]
    simp only [withRound, hq]
    rfl

theorem coreTurns_cipher :
    coreTurns (s.nk.nr + 1) s = .next (s.ciphered (cipher s.blk s.sched s.nk.nr s.dir)) := by
  have hpos := s.nk.nr_pos
  obtain ⟨q, hq, hturns⟩ := coreTurns_rounds ho hrc (r := s.nk.nr - 1) (by omega)
  rw [Nat.sub_add_cancel hpos] at hq hturns
  rw [coreTurns_add, hturns, andThen_next, coreTurns_one,
    coreStep_cipher_last (s := s.withRound _ q) ho hq.ge]
  rfl

end State

/-- An accepted cipher command and its Nr + 1 micro-steps (R167). -/
theorem cipher_runs {s : State} {d : Dir} (hs : ControlSound s) (hb : s.busy = false) (ht : s.tag = d.kind) :
    andThen (exec d.command.toInstr s) (coreTurns (s.nk.nr + 1)) = .next { s with
      blk := cipher s.blk (s.w.toList.take (4 * (s.nk.nr + 1))) s.nk.nr d,
      dir := d, rc := 0, op := .idle, busy := false, done := true } := by
  obtain ⟨hrc, -, -⟩ := hs.idle_cleared hb
  rw [exec_cipher_of_tag hb ht, andThen_next, cipher_take]
  exact State.coreTurns_cipher (s := s.acceptCipher d) rfl hrc

end Sys2Proof.Machine

namespace Sys2Proof.Proofs

open Sys2Proof.Machine

/-- Settles O41, for each direction. -/
theorem cipherResult : Obligations.CipherResult :=
  fun _ hs hb =>
    ⟨fun ht => cipher_runs (d := .forward) hs hb ht, fun ht => cipher_runs (d := .inverse) hs hb ht⟩

/-- Settles O16: the word of ENCRYPT decodes to its row; the rest is `requireTag` after the BUSY check. -/
theorem encryptAcceptance : Obligations.EncryptAcceptance := fun s =>
  ⟨exec_wr_ctrl (i := .encrypt) (by decide) s, fun hb => execCommand_of_busy hb .encrypt,
    fun hb _ hcmd hv => exec_wr_ctrl_of_bad_fields (by simp [ctrlCmd, hcmd]) hv hb,
    fun hb ht => exec_cipher_of_tag_ne (d := .forward) hb ht,
    fun hb ht => exec_cipher_of_tag (d := .forward) hb ht⟩

/-- Settles O17: the word of DECRYPT decodes to its row; the rest is `requireTag` after the BUSY check. -/
theorem decryptAcceptance : Obligations.DecryptAcceptance := fun s =>
  ⟨exec_wr_ctrl (i := .decrypt) (by decide) s, fun hb => execCommand_of_busy hb .decrypt,
    fun hb _ hcmd hv => exec_wr_ctrl_of_bad_fields (by simp [ctrlCmd, hcmd]) hv hb,
    fun hb ht => exec_cipher_of_tag_ne (d := .inverse) hb ht,
    fun hb ht => exec_cipher_of_tag (d := .inverse) hb ht⟩

end Sys2Proof.Proofs

/-! The round trip on the machine (44_round_driver.md R169), from the result of each command. -/

namespace Sys2Proof.Machine

/-- t is ready for the next command, with the KEY and ERR of s. -/
structure EndsIdle (s t : State) : Prop where
  control : ControlSound t
  busy : t.busy = false
  key : t.key = s.key
  err : t.err = s.err

theorem EndsIdle.trans {s t u : State} (h : EndsIdle s t) (h' : EndsIdle t u) : EndsIdle s u :=
  ⟨h'.control, h'.busy, h'.key.trans h.key, h'.err.trans h.err⟩

/-- EXPAND and its micro-steps leave the schedule of KEY in W and do not touch S (R145). -/
theorem expand_runs {s : State} (k : KeySize) (hs : ControlSound s) (hb : s.busy = false) : ∃ t,
    andThen (exec (.expand k.code) s) (coreTurns (k.last + 1)) = .next t
    ∧ EndsIdle s t ∧ t.nk = k ∧ t.tag = .fwd ∧ t.blk = s.blk
    ∧ t.w.toList.take (4 * (k.nr + 1)) = expand (s.key.toList.take k.nk) k.nk := by
  obtain ⟨-, -, hph⟩ := hs.idle_cleared hb
  obtain ⟨w, hruns, hw, -, -⟩ := Proofs.expandResult s k hs hb
  exact ⟨_, hruns, ⟨controlSound_of_idle rfl rfl rfl rfl hph hs.errcode_iff_err, rfl, rfl, rfl⟩,
    rfl, rfl, rfl, hw⟩

/-- INVSCHED and its micro-steps reverse the schedule in W and do not touch S (R150). -/
theorem invsched_runs {s : State} (hs : ControlSound s) (hb : s.busy = false) (ht : s.tag = .fwd) : ∃ t,
    andThen (exec .invsched s) (coreTurns (2 * (s.nk.last + 1))) = .next t
    ∧ EndsIdle s t ∧ t.nk = s.nk ∧ t.tag = .inv ∧ t.blk = s.blk
    ∧ t.w.toList.take (4 * (s.nk.nr + 1)) = invsched (s.w.toList.take (4 * (s.nk.nr + 1))) s.nk.nr := by
  obtain ⟨w, x, hruns, hw, -, -⟩ := Proofs.invschedResult s hs hb ht
  exact ⟨_, hruns, ⟨controlSound_of_idle rfl rfl rfl rfl rfl hs.errcode_iff_err, rfl, rfl, rfl⟩,
    rfl, rfl, rfl, hw⟩

/-- A cipher command and its micro-steps encrypt or decrypt S and keep the schedule in W (R167). -/
theorem cipher_ends {s : State} {d : Dir} (hs : ControlSound s) (hb : s.busy = false) (ht : s.tag = d.kind) :
    ∃ t, andThen (exec d.command.toInstr s) (coreTurns (s.nk.nr + 1)) = .next t
    ∧ EndsIdle s t ∧ t.nk = s.nk ∧ t.tag = s.tag ∧ t.w = s.w
    ∧ t.blk = cipher s.blk (s.w.toList.take (4 * (s.nk.nr + 1))) s.nk.nr d := by
  obtain ⟨-, hki, hph⟩ := hs.idle_cleared hb
  exact ⟨_, cipher_runs hs hb ht,
    ⟨controlSound_of_idle rfl rfl rfl hki hph hs.errcode_iff_err, rfl, rfl, rfl⟩, rfl, rfl, rfl, rfl⟩

end Sys2Proof.Machine

namespace Sys2Proof.Proofs

open Sys2Proof.Machine

/-- Settles O43: the four results one after another, then R169 for the schedule of KEY. -/
theorem machineRoundTrip : Obligations.MachineRoundTrip := by
  intro s k hs hb expanded encrypted inverted decrypted
  obtain ⟨t₁, hexpand, h₁, hnk₁, htag₁, hblk₁, hw₁⟩ := expand_runs k hs hb
  obtain ⟨t₂, hencrypt, h₂, hnk₂, htag₂, hw₂, hblk₂⟩ :=
    cipher_ends (d := .forward) h₁.control h₁.busy htag₁
  obtain ⟨t₃, hinvsched, h₃, hnk₃, htag₃, hblk₃, hw₃⟩ :=
    invsched_runs h₂.control h₂.busy (htag₂.trans htag₁)
  obtain ⟨t₄, hdecrypt, h₄, -, -, -, hblk₄⟩ := cipher_ends (d := .inverse) h₃.control h₃.busy htag₃
  rw [hnk₁] at hencrypt hblk₂
  rw [hnk₂, hnk₁] at hinvsched hw₃
  rw [hnk₃, hnk₂, hnk₁] at hdecrypt hblk₄
  have hencrypted : encrypted = .next t₂ := by
    simp only [encrypted, expanded, hexpand, andThen_next]
    exact hencrypt
  have hdecrypted : decrypted = .next t₄ := by
    simp only [decrypted, inverted, hencrypted, andThen_next, hinvsched]
    exact hdecrypt
  have hcipher : t₂.blk = cipher s.blk (expand (s.key.toList.take k.nk) k.nk) k.nr .forward := by
    rw [hblk₂, hblk₁, hw₁]
  have hplain : t₄.blk = s.blk := by
    rw [hblk₄, hblk₃, hcipher, hw₃, hw₂, hw₁]
    exact (decryptUndoesEncrypt _ k s.blk).1
  have hend : EndsIdle s t₄ := ((h₁.trans h₂).trans h₃).trans h₄
  exact ⟨⟨t₂, hencrypted, hcipher⟩, t₄, hdecrypted, hplain, hend.key, hend.err⟩

end Sys2Proof.Proofs

/-! What a step loads into S, and the rows that load it (44_round_driver.md R165, R166). -/

namespace Sys2Proof.Machine

/-! ### S after a host cycle -/

theorem blk_of_reset {p : Pins} {s t : State} (hr : p.rst = true) (h : hostCycle p s = .next t) :
    t.blk = Vector.replicate 4 0 := by
  rw [hostCycle, if_pos hr] at h
  obtain rfl := Host.Outcome.next.inj h
  rfl

theorem blk_of_acceptsBlockWrite {p : Pins} {s t : State} (ha : acceptsBlockWrite s p = true)
    (h : hostCycle p s = .next t) :
    t.blk = s.blk.set (blockIndex p.addr).val p.wdata (blockIndex p.addr).isLt := by
  rw [hostCycle_of_acceptsBlockWrite ha] at h
  obtain rfl := Host.Outcome.next.inj h
  rfl

/-- Without reset a host cycle that is no accepted write to BLOCK holds S. -/
theorem blk_of_not_acceptsBlockWrite {p : Pins} {s t : State} (hr : p.rst = false)
    (ha : ¬acceptsBlockWrite s p = true) (h : hostCycle p s = .next t) : t.blk = s.blk :=
  Vector.ext fun c hc => of_not_not fun hne => by
    obtain hrst | ⟨hb, hw⟩ := (hostCycle_effect h).writes_of_blk_ne (c := ⟨c, hc⟩) hne
    · simp [hr] at hrst
    · have haddr : p.addr.toNat = 0x04 + c := hw.addr
      exact ha (acceptsBlockWrite_iff.mpr ⟨hr, hw.sel, hw.we, hb, by omega, by omega⟩)

/-! ### S after a turn of the CORE -/

/-- INIT, FULL or LAST with OP = CIPHER, and HOLD otherwise. -/
theorem CoreEffect.blk_eq {s t : State} (h : CoreEffect s t) : t.blk =
    if s.op = .cipher then
      if s.rc.val = 0 then addKey s.blk (slice s.sched 0)
      else if s.rc.val < s.nk.nr then fullRound s.dir (slice s.sched s.rc.val) s.blk
      else lastRound s.dir (slice s.sched s.nk.nr) s.blk
    else s.blk := by
  by_cases ho : s.op = .cipher
  · rw [if_pos ho]
    cases h
    case cipherInit hr => rw [if_pos hr]
    case cipherFull h0 hr => rw [if_neg h0.ne', if_pos hr]
    case cipherLast hr => rw [if_neg (by have := s.nk.nr_pos; omega), if_neg hr.not_gt]
    all_goals simp_all only [reduceCtorEq]
  · rw [if_neg ho, (h.blk_rc_eq ho).1]

end Sys2Proof.Machine

namespace Sys2Proof.Proofs

open Sys2Proof.Machine

/-- Settles O20: a host cycle resets, is HOSTWR or holds S; a turn of the CORE loads what its effect says. -/
theorem stateMultiplexer : Obligations.StateMultiplexer := by
  intro s t e rest hp h
  cases e with
  | host p =>
    rw [step_host hp] at h
    dsimp only
    split_ifs with hr hw
    · exact blk_of_reset hr h
    · obtain ⟨hsel, hwe, hb, h4, h7⟩ := hw
      have ha : acceptsBlockWrite s p = true :=
        acceptsBlockWrite_iff.mpr ⟨by simpa using hr, hsel, hwe, hb, h4, h7⟩
      have hindex : (blockIndex p.addr).val = (p.addr.toNat - 0x04) % 4 := by
        simp only [blockIndex]
        omega
      simp only [blk_of_acceptsBlockWrite (s := { s with pending := rest }) ha h, hindex]
    · have ha : ¬acceptsBlockWrite s p = true := fun ha => hw (acceptsBlockWrite_iff.mp ha).2
      exact blk_of_not_acceptsBlockWrite (s := { s with pending := rest }) (by simpa using hr) ha h
  | core =>
    rw [step_core hp] at h
    exact (coreStep_effect h).blk_eq

/-- Settles O21: DIR gives the tuple of R160, and RC the row that the micro-step is. -/
theorem cipherMicroStep : Obligations.CipherMicroStep := by
  intro s ho tab sh poly k
  have htab : s.dir.table = tab := by cases hd : s.dir <;> simp [tab, hd, Dir.table]
  have hsh : s.dir.shift = sh := by cases hd : s.dir <;> simp [sh, hd, Dir.shift]
  have hpoly : s.dir.poly = poly := by cases hd : s.dir <;> simp [poly, hd, Dir.poly]
  have hrow {i : Ssel} (hi : cipherSelect s = i) : coreStep s = exec i.toInstr s := by
    rw [coreStep, ho, ← hi]
  have hk {r : Nat} (hr : s.rc.val = r) : k = slice s.sched r := congrArg (slice s.sched) hr
  rw [← htab, ← hsh, ← hpoly]
  refine ⟨fun h0 => ⟨hrow (if_pos h0), ?_⟩, fun h0 hr => ?_, fun hr => ⟨hrow (i := .last) ?_, ?_⟩⟩
  · rw [hk h0]
    rfl
  · have hfull : cipherSelect s = .full := (if_neg h0.ne').trans (if_pos hr)
    exact ⟨s.rc + 1, State.rc_add_one hr, hrow hfull, rfl⟩
  · have hpos := s.nk.nr_pos
    rw [cipherSelect, if_neg (by omega), if_neg (by omega)]
  · rw [hk hr]
    rfl

/-- Settles O27, row by row: the fields that a row's record update does not name. -/
theorem roundDriverRowsFrame : Obligations.RoundDriverRowsFrame := by
  intro i s t hi h
  obtain rfl | rfl | rfl | rfl | rfl := hi
  all_goals
    obtain rfl := Host.Outcome.next.inj h
    simp

/-- Settles O45 by running the cipher on the three vectors. -/
theorem standardVectors : Obligations.StandardVectors :=
  ⟨by decide +kernel, by decide +kernel, by decide +kernel⟩

end Sys2Proof.Proofs

/-! The port's rows and the dispatch of a CTRL write (45_commands.md R180 to R183): what RD returns and WR does
at every address, and the outcome of every word written to CTRL. -/

namespace Sys2Proof.Machine

/-! ### RD -/

section
variable {a : Addr} (s : State)

theorem State.readPort_status (h : a.toNat = 0x01) : s.readPort a = statusWord s := by
  rw [State.readPort, target_status h]

theorem State.readPort_block (c : Fin 4) (h : a.toNat = 0x04 + c.val) : s.readPort a = s.blk[c] := by
  rw [State.readPort, target_block c h]

theorem State.readPort_key (i : Fin 8) (h : a.toNat = 0x08 + i.val) : s.readPort a = s.key[i] := by
  rw [State.readPort, target_key i h]

theorem State.readPort_sched (i : Fin 60) (h : a.toNat = 0x40 + i.val) : s.readPort a = s.w[i] := by
  rw [State.readPort, target_sched i h]

/-- CTRL and the reserved addresses. -/
theorem State.readPort_zero (h : a.toNat = 0x00 ∨ a.toNat = 0x02 ∨ a.toNat = 0x03
    ∨ (0x10 ≤ a.toNat ∧ a.toNat ≤ 0x3F) ∨ 0x7C ≤ a.toNat) : s.readPort a = 0 := by
  obtain hctrl | hreserved := h
  · rw [State.readPort, target_ctrl hctrl]
  · rw [State.readPort, target_reserved hreserved]

end

/-! ### WR -/

section
variable {a : Addr} {s : State} (v : Word)

theorem exec_wr_block (hb : s.busy = false) (c : Fin 4) (h : a.toNat = 0x04 + c.val) :
    exec (.wr a v) s = .next (s.putBlockWord c v) := by
  rw [exec, execWr, unlessBusy_of_idle hb, target_block c h]

theorem exec_wr_key (hb : s.busy = false) (i : Fin 8) (h : a.toNat = 0x08 + i.val) :
    exec (.wr a v) s = .next (s.putKeyWord i v) := by
  rw [exec, execWr, unlessBusy_of_idle hb, target_key i h]

theorem exec_wr_dispatch (hb : s.busy = false) (h : a.toNat = 0x00) :
    exec (.wr a v) s = dispatch v s := by
  rw [exec, execWr, unlessBusy_of_idle hb, target_ctrl h]

/-- STATUS, W and the reserved addresses take no write. -/
theorem exec_wr_badAccess (hb : s.busy = false)
    (h : a.toNat = 0x01 ∨ a.toNat = 0x02 ∨ a.toNat = 0x03 ∨ 0x10 ≤ a.toNat) :
    exec (.wr a v) s = .next (s.raise .badAccess) := by
  have hmap := toNat_of_target a
  rw [exec, execWr, unlessBusy_of_idle hb]
  cases ht : target a with
  | status | sched i | reserved => rfl
  | ctrl | block c | key i =>
    simp only [ht] at hmap
    omega

end

/-! ### The dispatch of a CTRL write -/

/-- The form check of R182, as the rule writes it. -/
theorem ctrlMalformed_iff {v : Word} : ctrlMalformed v = true ↔
    v.getLsbD 3 = true ∨ v.extractLsb' 6 26 ≠ 0 ∨ 5 ≤ (v.extractLsb' 0 3).toNat
      ∨ (v.extractLsb' 0 3 ≠ 1 ∧ v.extractLsb' 4 2 ≠ 0) := by
  rw [ctrlMalformed, ctrlCmd, ctrlKs, Bool.or_eq_true, Bool.or_eq_true, Bool.or_eq_true, Bool.and_eq_true,
    bne_iff_ne, bne_iff_ne, bne_iff_ne, decide_eq_true_iff, or_assoc, or_assoc]
  rfl

/-- What the form check lets through: NOP, EXPAND with any KS, ENCRYPT, DECRYPT and INVSCHED. -/
theorem command_word_of_not_malformed {v : Word} (h : ctrlMalformed v = false) :
    v = 0 ∨ (∃ ks, v = ctrlWord 1 ks) ∨ v = 2 ∨ v = 3 ∨ v = 4 := by
  obtain ⟨hv, hcmd, hks⟩ := eq_ctrlWord_of_not_malformed h
  by_cases h1 : ctrlCmd v = 1
  · exact .inr (.inl ⟨ctrlKs v, h1 ▸ hv⟩)
  · have hks0 : ctrlKs v = 0 := hks.resolve_left h1
    have hcases : ctrlCmd v = 0 ∨ ctrlCmd v = 2 ∨ ctrlCmd v = 3 ∨ ctrlCmd v = 4 := by
      generalize ctrlCmd v = cmd at h1 hcmd
      revert cmd
      decide
    obtain h | h | h | h := hcases
    all_goals rw [h, hks0] at hv
    · exact .inl hv
    · exact .inr (.inr (.inl hv))
    · exact .inr (.inr (.inr (.inl hv)))
    · exact .inr (.inr (.inr (.inr hv)))

theorem ctrlCmd_expand_word (ks : BitVec 2) : (ctrlWord 1 ks).extractLsb' 0 3 = 1 := by
  revert ks
  decide

theorem ctrlKs_expand_word (ks : BitVec 2) : (ctrlWord 1 ks).extractLsb' 4 2 = ks := by
  revert ks
  decide

theorem KeySize.ite_code_eq (k : KeySize) :
    (if k.code = 0 then .k128 else if k.code = 1 then .k192 else .k256) = k := by
  cases k <;> rfl

theorem KeySize.code_ne_three (k : KeySize) : k.code ≠ 3 := by
  cases k <;> decide

theorem KeySize.eq_three_or_eq_code (ks : BitVec 2) : ks = 3 ∨ ∃ k : KeySize, ks = k.code := by
  have hks : ks = 3 ∨ ks = 0 ∨ ks = 1 ∨ ks = 2 := by
    revert ks
    decide
  obtain h3 | h0 | h1 | h2 := hks
  · exact .inl h3
  · exact .inr ⟨.k128, h0⟩
  · exact .inr ⟨.k192, h1⟩
  · exact .inr ⟨.k256, h2⟩

end Sys2Proof.Machine

namespace Sys2Proof.Proofs

open Sys2Proof.Machine

/-- Settles O8: RD drives what the register map reads at the address. -/
theorem readReturnsTheAddressedRegister : Obligations.ReadReturnsTheAddressedRegister := fun a s =>
  ⟨s.readPort a, rfl, s.readPort_status, s.readPort_block, s.readPort_key, s.readPort_sched,
    s.readPort_zero⟩

/-- Settles O10: BUSY first, then the register map. -/
theorem writeFollowsItsRule : Obligations.WriteFollowsItsRule := fun a v _ =>
  ⟨fun hb => execWr_of_busy hb a v, fun hb => ⟨exec_wr_block v hb, exec_wr_key v hb,
    exec_wr_dispatch v hb, exec_wr_badAccess v hb⟩⟩

/-- Settles O14: the zero word decodes to NOP, whose only check is BUSY. -/
theorem nopHasNoEffect : Obligations.NopHasNoEffect := fun s =>
  ⟨exec_wr_ctrl (i := .nop) (by decide) s, fun hb => unlessBusy_of_idle hb _,
    fun hb => unlessBusy_of_busy hb _⟩

/-- Settles O11: a malformed word is refused at the first check, and each word left is a command's; on it the
chain's conditions on v are constants, and what stays is the command's own check. -/
theorem ctrlWriteFollowsTheDispatchOrder : Obligations.CtrlWriteFollowsTheDispatchOrder := by
  intro v s hb
  cases hm : ctrlMalformed v with
  | true => rw [if_pos (ctrlMalformed_iff.mp hm), exec_wr_ctrl_of_malformed hm hb]
  | false =>
    rw [if_neg fun h => by simp [ctrlMalformed_iff.mpr h] at hm]
    obtain rfl | ⟨ks, rfl⟩ | rfl | rfl | rfl := command_word_of_not_malformed hm
    · exact (exec_wr_ctrl (i := .nop) (by decide) s).trans (unlessBusy_of_idle hb _)
    · rw [ctrlCmd_expand_word, ctrlKs_expand_word, ← expand_word_eq_ctrlWord, exec_wr_ctrl_expand]
      obtain rfl | ⟨k, rfl⟩ := KeySize.eq_three_or_eq_code ks
      · rw [exec_expand_three, unlessBusy_of_idle hb]
        rfl
      · rw [exec_expand_code hb, k.ite_code_eq, if_neg (by decide), if_neg fun h => k.code_ne_three h.2]
        rfl
    · have hrow : exec .encrypt s = requireTag .fwd (State.acceptCipher .forward) s :=
        exec_cipher_of_idle hb .forward
      rw [exec_wr_ctrl (i := .encrypt) (by decide), hrow]
      simp [requireTag, refuse, State.acceptCipher, State.start]
    · have hrow : exec .decrypt s = requireTag .inv (State.acceptCipher .inverse) s :=
        exec_cipher_of_idle hb .inverse
      rw [exec_wr_ctrl (i := .decrypt) (by decide), hrow]
      simp [requireTag, refuse, State.acceptCipher, State.start]
    · rw [exec_wr_ctrl (i := .invsched) (by decide), exec_invsched_of_idle hb]
      simp [requireTag, refuse, State.acceptInvsched, State.start]

end Sys2Proof.Proofs

/-! Every instruction and every event goes on (60_exceptions.md R209, 30_encoding.md R92). -/

namespace Sys2Proof.Machine

theorem exec_next (i : Instr) (s : State) : ∃ t, exec i s = .next t := by
  have hcommand (c : Command) : ∃ t, exec c.toInstr s = .next t := exec_toInstr c s ▸ execCommand_next c s
  cases i with
  | idle | rd => exact ⟨_, rfl⟩
  | wr a v => exact execWr_next a v s
  | nop => exact hcommand .nop
  | expand ks => exact hcommand (.expand ks)
  | encrypt => exact hcommand .encrypt
  | decrypt => exact hcommand .decrypt
  | invsched => exact hcommand .invsched
  | hold | hostwr | init | full | last => exact ⟨_, rfl⟩
  | keycopy | plain | rotsub | subonly => exact ⟨_, rfl⟩

theorem hostCycle_next (p : Pins) (s : State) : ∃ t, hostCycle p s = .next t :=
  runEvent_next (.host p) s

theorem step_next (s : State) : ∃ t, step s = .next t := by
  obtain hc | ⟨p, hp⟩ := nextIsCore_or_nextPins s
  · exact step_of_nextIsCore hc ▸ coreStep_next s.takeEvent
  · exact step_of_nextPins hp ▸ hostCycle_next p s.takeEvent

end Sys2Proof.Machine

namespace Sys2Proof.Proofs

open Sys2Proof.Machine

/-- Settles O6: row by row for `exec`; a step is the turn or the cycle of its next event. -/
theorem everyStepGoesOn : Obligations.EveryStepGoesOn :=
  ⟨exec_next, coreStep_next, hostCycle_next, step_next⟩

end Sys2Proof.Proofs

/-! The legal CTRL words (60_exceptions.md R203, R204). -/

namespace Sys2Proof

/-- The words that are not ILLEGAL_CMD: NOP, EXPAND with each KS, ENCRYPT, DECRYPT, INVSCHED. -/
def ctrlWords : List Word :=
  [0x00000000, 0x00000001, 0x00000011, 0x00000021, 0x00000031, 0x00000002, 0x00000003, 0x00000004]

theorem not_malformed_of_mem_ctrlWords {v : Word} (h : v ∈ ctrlWords) : ctrlMalformed v = false := by
  have hall : (ctrlWords.all fun v => !ctrlMalformed v) = true := by decide
  simpa using List.all_eq_true.mp hall v h

theorem ctrlWord_expand_mem_ctrlWords (ks : BitVec 2) : ctrlWord 1 ks ∈ ctrlWords := by
  revert ks
  decide

theorem mem_ctrlWords_of_not_malformed {v : Word} (h : ctrlMalformed v = false) : v ∈ ctrlWords := by
  obtain rfl | ⟨ks, rfl⟩ | rfl | rfl | rfl := Machine.command_word_of_not_malformed h
  · decide
  · exact ctrlWord_expand_mem_ctrlWords ks
  · decide
  · decide
  · decide

theorem ctrlMalformed_iff_not_mem_ctrlWords {v : Word} : ctrlMalformed v = true ↔ v ∉ ctrlWords := by
  refine ⟨fun h hv => ?_, fun hv => ?_⟩
  · simp [not_malformed_of_mem_ctrlWords hv] at h
  · exact Bool.eq_true_of_not_eq_false (mt mem_ctrlWords_of_not_malformed hv)

theorem decodeCtrl_eq_illegalCmd_iff {v : Word} :
    decodeCtrl v = .error .illegalCmd ↔ ctrlMalformed v = true := by
  unfold decodeCtrl
  split_ifs with hm <;> simp [hm]

theorem decodeCtrl_eq_illegalKeysize_iff {v : Word} :
    decodeCtrl v = .error .illegalKeysize ↔ v = 0x00000031 := by
  refine ⟨fun h => ?_, ?_⟩
  · unfold decodeCtrl at h
    split_ifs at h with hm h0 h1 h3
    · cases h
    · obtain ⟨hv, -, -⟩ := eq_ctrlWord_of_not_malformed (Bool.eq_false_iff.mpr hm)
      rw [hv, h1, h3]
      rfl
  · rintro rfl
    decide

end Sys2Proof

namespace Sys2Proof.Proofs

open Sys2Proof.Machine

/-- Settles O3: the eight words are those of a good form, and of them only 0x00000031 is rejected. -/
theorem legalCtrlWordsAreTheEight : Obligations.LegalCtrlWordsAreTheEight := fun _ =>
  ⟨decodeCtrl_eq_illegalCmd_iff.trans ctrlMalformed_iff_not_mem_ctrlWords,
    decodeCtrl_eq_illegalKeysize_iff,
    fun _ hb hv => exec_wr_ctrl_of_malformed (ctrlMalformed_iff_not_mem_ctrlWords.mpr hv) hb⟩

end Sys2Proof.Proofs

/-! ERR and ERRCODE (60_exceptions.md R200, R208): what raises them, what keeps them, and that nothing but a read
of STATUS depends on them. -/

namespace Sys2Proof.Machine

/-- t is a refusal in s, or has the ERR and ERRCODE of s. -/
def RaisesOrKeeps (s t : State) : Prop :=
  (∃ c, t = s.raise c) ∨ (t.err = s.err ∧ t.errcode = s.errcode)

/-- The first cause stays recorded (R200). -/
theorem RaisesOrKeeps.sticky {s t : State} (h : RaisesOrKeeps s t) (he : s.err = true) :
    t.err = true ∧ t.errcode = s.errcode := by
  obtain ⟨c, rfl⟩ | ⟨herr, hcode⟩ := h
  · exact ⟨rfl, if_pos he⟩
  · exact ⟨herr.trans he, hcode⟩

theorem CommandEffect.raisesOrKeeps {s t : State} {c : Command} (h : CommandEffect s c t) :
    RaisesOrKeeps s t := by
  cases h with
  | refuse c x => exact .inl ⟨x, rfl⟩
  | nop | expand | encrypt | decrypt | invsched => exact .inr ⟨rfl, rfl⟩

theorem WriteEffect.raisesOrKeeps {s t : State} {a : Addr} {v : Word} (h : WriteEffect s a v t) :
    RaisesOrKeeps s t := by
  cases h with
  | refuse x => exact .inl ⟨x, rfl⟩
  | block | key => exact .inr ⟨rfl, rfl⟩
  | command ha he => exact he.raisesOrKeeps

theorem HostEffect.rst_or_raisesOrKeeps {s t : State} {p : Pins} (h : HostEffect s p t) :
    p.rst = true ∨ RaisesOrKeeps (s.beginCycle p) t := by
  cases h
  case reset hr => exact .inl hr
  case refuse c => exact .inr (.inl ⟨c, rfl⟩)
  all_goals exact .inr (.inr ⟨rfl, rfl⟩)

/-- No micro-step writes ERR, ERRCODE or the port's own state. -/
theorem CoreEffect.port_eq {s t : State} (h : CoreEffect s t) : t.err = s.err ∧ t.errcode = s.errcode
    ∧ t.pins = s.pins ∧ t.rdata = s.rdata ∧ t.fresh = s.fresh := by
  cases h <;> exact ⟨rfl, rfl, rfl, rfl, rfl⟩

theorem step_of_nextIsReset {s : State} (h : nextIsReset s) :
    ∃ u : State, step s = .next u.applyReset := by
  obtain ⟨p, ⟨rest, hp⟩, hr⟩ := h
  exact ⟨_, (step_host hp).trans (if_pos hr)⟩

/-! ### Noninterference -/

/-- u is s but for ERR, ERRCODE and rdata. -/
def ErrDiffers (s u : State) : Prop := ∃ e c r, u = { s with err := e, errcode := c, rdata := r }

theorem hostRespects_errDiffers : HostRespects ErrDiffers where
  busy := by rintro s _ ⟨e, c, r, rfl⟩; rfl
  tag := by rintro s _ ⟨e, c, r, rfl⟩; rfl
  beginCycle := by rintro s _ p ⟨e, c, r, rfl⟩; exact ⟨e, c, _, rfl⟩
  applyReset := by rintro s _ ⟨e, c, r, rfl⟩; exact ⟨_, _, _, rfl⟩
  driveRdata := by rintro s _ v ⟨e, c, r, rfl⟩; exact ⟨e, c, v, rfl⟩
  read := by rintro s _ a ⟨e, c, r, rfl⟩; exact ⟨e, c, _, rfl⟩
  raise := by rintro s _ x ⟨e, c, r, rfl⟩; exact ⟨true, _, r, rfl⟩
  putBlockWord := by rintro s _ i v ⟨e, c, r, rfl⟩; exact ⟨e, c, r, rfl⟩
  putKeyWord := by rintro s _ i v ⟨e, c, r, rfl⟩; exact ⟨e, c, r, rfl⟩
  acceptExpand := by rintro s _ k ⟨e, c, r, rfl⟩; exact ⟨e, c, r, rfl⟩
  acceptCipher := by rintro s _ d ⟨e, c, r, rfl⟩; exact ⟨e, c, r, rfl⟩
  acceptInvsched := by rintro s _ ⟨e, c, r, rfl⟩; exact ⟨e, c, r, rfl⟩

theorem CoreEffect.with_err {s t : State} (h : CoreEffect s t) (e : Bool) (c : Option Cause) :
    ∃ u, CoreEffect { s with err := e, errcode := c } u ∧ ErrDiffers t u := by
  obtain ⟨-, -, hpins, -, hfresh⟩ := h.port_eq
  refine ⟨_, h.withPort e c s.pins s.rdata s.fresh, e, c, s.rdata, ?_⟩
  rw [State.withPort, hpins, hfresh]

end Sys2Proof.Machine

namespace Sys2Proof.Proofs

open Sys2Proof.Machine

/-- Settles O12, agent by agent. -/
theorem refusalRecordsTheFirstCauseOnly : Obligations.RefusalRecordsTheFirstCauseOnly := by
  refine ⟨fun c s => rfl, fun s t h => ?_, fun s t we a h => ?_, fun s t a h => ?_, fun s t a v h => ?_⟩
  · obtain ⟨herr, hcode, -⟩ := (coreStep_effect h).port_eq
    exact ⟨herr, hcode⟩
  · rw [rdata_only_of_idle_or_rd (.inl ⟨we, a, rfl⟩) h]
    exact ⟨rfl, rfl⟩
  · rw [rdata_only_of_idle_or_rd (.inr ⟨a, rfl⟩) h]
    exact ⟨rfl, rfl⟩
  · have he : WriteEffect s a v t := execWr_writeEffect h
    exact he.raisesOrKeeps

/-- Settles O33: no turn of the CORE writes ERR, a host cycle without reset keeps a recorded cause, and a reset
clears it. -/
theorem errIsStickyUntilReset : Obligations.ErrIsStickyUntilReset := by
  refine fun s t h herr => ⟨fun hnr => ?_, fun hr => ?_⟩
  · obtain ⟨-, he⟩ | ⟨p, hp, he⟩ := step_effect h
    · obtain ⟨herr', hcode, -⟩ := he.port_eq
      exact ⟨herr'.trans herr, hcode⟩
    · have hr : ¬p.rst = true := fun hr => hnr (nextIsReset_of_nextPins hp hr)
      exact (he.rst_or_raisesOrKeeps.resolve_left hr).sticky herr
  · obtain ⟨u, hu⟩ := step_of_nextIsReset hr
    obtain rfl := Host.Outcome.next.inj (h.symm.trans hu)
    exact ⟨rfl, rfl⟩

/-- Settles O34: host cycles respect `ErrDiffers`, and so do turns of the CORE. -/
theorem errNeverInfluences : Obligations.ErrNeverInfluences := by
  intro s t e c h
  obtain ⟨_, hu, e', c', r, rfl⟩ := step_related hostRespects_errDiffers (s := s)
    (u := { s with err := e, errcode := c }) rfl rfl ⟨e, c, _, rfl⟩ (fun he => he.with_err e c) h
  exact ⟨e', c', r, hu⟩

end Sys2Proof.Proofs

/-! Which cause a refused write records (60_exceptions.md R207). -/

namespace Sys2Proof.Machine

/-- r is a next state that records the cause o, or none, with ERR to match. -/
def Records (r : Result) (o : Option Cause) : Prop :=
  ∃ t, r = .next t ∧ (t.err = true ↔ t.errcode ≠ none) ∧ t.errcode = o

/-- What a write of a legal word to CTRL records while BUSY = 0, with TAG = k. -/
def ctrlWordCause (v : Word) (k : Tag) : Option Cause :=
  if v = 0x00000031 then some .illegalKeysize
  else if (v = 0x00000002 ∨ v = 0x00000004) ∧ k ≠ .fwd then some .schedMismatch
  else if v = 0x00000003 ∧ k ≠ .inv then some .schedMismatch
  else none

theorem ctrlWordCause_expand (ks : BitVec 2) (k : Tag) :
    ctrlWordCause (ctrlWord 1 ks) k = if ks = 3 then some .illegalKeysize else none := by
  cases k <;> revert ks <;> decide

theorem ctrlWordCause_encrypt (k : Tag) :
    ctrlWordCause 0x00000002 k = if k = .fwd then none else some .schedMismatch := by
  simp [ctrlWordCause]

theorem ctrlWordCause_decrypt (k : Tag) :
    ctrlWordCause 0x00000003 k = if k = .inv then none else some .schedMismatch := by
  simp [ctrlWordCause]

theorem ctrlWordCause_invsched (k : Tag) :
    ctrlWordCause 0x00000004 k = if k = .fwd then none else some .schedMismatch := by
  simp [ctrlWordCause]

section
variable {s : State} (he : s.err = false)
include he

theorem records_raise (c : Cause) : Records (.next (s.raise c)) (some c) :=
  ⟨_, rfl, by simp [he], by simp [he]⟩

variable (hc : s.errcode = none)
include hc

theorem records_none {t : State} (h : t.err = s.err ∧ t.errcode = s.errcode) :
    Records (.next t) none := by
  obtain ⟨herr, hcode⟩ := h
  exact ⟨t, rfl, by simp [herr, hcode, he, hc], hcode.trans hc⟩

theorem records_requireTag (k : Tag) {f : State → State}
    (hf : (f s).err = s.err ∧ (f s).errcode = s.errcode) :
    Records (requireTag k f s) (if s.tag = k then none else some .schedMismatch) := by
  by_cases ht : s.tag = k
  · rw [requireTag_of_eq ht, if_pos ht]
    exact records_none he hc hf
  · rw [requireTag_of_ne ht, if_neg ht]
    exact records_raise he .schedMismatch

variable (hb : s.busy = false)
include hb

/-- The words of S and KEY take every write. -/
theorem records_none_of_data {a : Addr} (h4 : 0x04 ≤ a.toNat) (h16 : a.toNat < 0x10) (v : Word) :
    Records (exec (.wr a v) s) none := by
  by_cases h8 : a.toNat < 0x08
  · rw [exec_wr_block v hb ⟨a.toNat - 0x04, by omega⟩ (by simp only; omega)]
    exact records_none he hc ⟨rfl, rfl⟩
  · rw [exec_wr_key v hb ⟨a.toNat - 0x08, by omega⟩ (by simp only; omega)]
    exact records_none he hc ⟨rfl, rfl⟩

/-- EXPAND is refused for KS = 3 alone. -/
theorem records_expand (ks : BitVec 2) :
    Records (exec (.expand ks) s) (if ks = 3 then some .illegalKeysize else none) := by
  obtain rfl | ⟨k, rfl⟩ := KeySize.eq_three_or_eq_code ks
  · rw [exec_expand_three, unlessBusy_of_idle hb]
    exact records_raise he .illegalKeysize
  · rw [exec_expand_code hb, if_neg k.code_ne_three]
    exact records_none he hc ⟨rfl, rfl⟩

/-- A cipher command is refused for TAG alone. -/
theorem records_cipher (d : Dir) :
    Records (exec d.command.toInstr s) (if s.tag = d.kind then none else some .schedMismatch) := by
  rw [exec_cipher_of_idle hb]
  exact records_requireTag he hc d.kind ⟨rfl, rfl⟩

/-- The legal words, by their own checks of KS and TAG. -/
theorem records_ctrlWordCause {v : Word} (hv : v ∈ ctrlWords) :
    Records (exec (.wr 0x00 v) s) (ctrlWordCause v s.tag) := by
  obtain rfl | ⟨ks, rfl⟩ | rfl | rfl | rfl :=
    command_word_of_not_malformed (not_malformed_of_mem_ctrlWords hv)
  · rw [exec_wr_ctrl (i := .nop) (by decide), exec, execNop, unlessBusy_of_idle hb]
    exact records_none he hc ⟨rfl, rfl⟩
  · rw [ctrlWordCause_expand, ← expand_word_eq_ctrlWord, exec_wr_ctrl_expand]
    exact records_expand he hc hb ks
  · rw [exec_wr_ctrl (i := Dir.forward.command.toInstr) (by decide), ctrlWordCause_encrypt]
    exact records_cipher he hc hb .forward
  · rw [exec_wr_ctrl (i := Dir.inverse.command.toInstr) (by decide), ctrlWordCause_decrypt]
    exact records_cipher he hc hb .inverse
  · rw [exec_wr_ctrl (i := .invsched) (by decide), exec_invsched_of_idle hb, ctrlWordCause_invsched]
    exact records_requireTag he hc .fwd ⟨rfl, rfl⟩

end

end Sys2Proof.Machine

namespace Sys2Proof.Proofs

open Sys2Proof.Machine

/-- Settles O13: a recorded cause is kept; without one, the conditions of R207 one after another. -/
theorem refusalPriority : Obligations.RefusalPriority := by
  refine ⟨fun a v s t herr h => ?_, fun a v s he hc => ?_⟩
  · have heffect : WriteEffect s a v t := execWr_writeEffect h
    exact heffect.raisesOrKeeps.sticky herr
  · change Records (exec (.wr a v) s)
      (if _ then _ else if _ then _ else if _ then _ else if _ then _ else ctrlWordCause v s.tag)
    split_ifs with hb hbad ha0 hv
    · rw [exec, execWr_of_busy hb]
      exact records_raise he .busyViolation
    all_goals have hidle : s.busy = false := Bool.eq_false_iff.mpr hb
    · rw [exec_wr_badAccess v hidle hbad]
      exact records_raise he .badAccess
    · exact records_none_of_data he hc hidle (by omega) (by omega) v
    all_goals obtain rfl : a = 0x00 := BitVec.eq_of_toNat_eq (not_not.mp ha0)
    · exact records_ctrlWordCause he hc hidle hv
    · rw [exec_wr_ctrl_of_malformed (ctrlMalformed_iff_not_mem_ctrlWords.mpr hv) hidle]
      exact records_raise he .illegalCmd

end Sys2Proof.Proofs

/-! The end of an operation (60_exceptions.md R209, 70_reset_and_hazards.md R241): every micro-step takes one
off the number of turns that are left. -/

namespace Sys2Proof.Machine

/-- How many turns of the CORE the operation in progress has left. -/
def State.turnsLeft (s : State) : Nat :=
  match s.op with
  | .idle => 0
  | .expand => s.nk.last + 1 - s.ki.val
  | .cipher => s.nk.nr + 1 - s.rc.val
  | .invsched =>
    match s.ph with
    | .compute => (s.nk.last + 1 - s.ki.val) + (s.nk.last + 1)
    | .copy => s.nk.last + 1 - s.ki.val

namespace State
variable {s : State}

theorem turnsLeft_expand (ho : s.op = .expand) : s.turnsLeft = s.nk.last + 1 - s.ki.val := by
  simp [turnsLeft, ho]

theorem turnsLeft_cipher (ho : s.op = .cipher) : s.turnsLeft = s.nk.nr + 1 - s.rc.val := by
  simp [turnsLeft, ho]

theorem turnsLeft_compute (ho : s.op = .invsched) (hp : s.ph = .compute) :
    s.turnsLeft = (s.nk.last + 1 - s.ki.val) + (s.nk.last + 1) := by
  simp [turnsLeft, ho, hp]

theorem turnsLeft_copy (ho : s.op = .invsched) (hp : s.ph = .copy) :
    s.turnsLeft = s.nk.last + 1 - s.ki.val := by
  simp [turnsLeft, ho, hp]

theorem turnsLeft_nextWord (ho : s.op = .expand ∨ s.op = .invsched) (hk : s.ki.val < s.nk.last) :
    s.turnsLeft = { s with ki := s.ki + 1 }.turnsLeft + 1 := by
  have hki := ki_add_one hk
  obtain ho | ho := ho
  · simp only [turnsLeft, ho, hki]
    omega
  · cases hp : s.ph with
    | compute | copy =>
      simp only [turnsLeft, ho, hp, hki]
      omega

theorem turnsLeft_nextRound (ho : s.op = .cipher) (hlt : s.rc.val < s.nk.nr) {r : Fin 15}
    (hr : r.val = s.rc.val + 1) : s.turnsLeft = { s with rc := r }.turnsLeft + 1 := by
  simp only [turnsLeft, ho, hr]
  omega

theorem turnsLeft_copyPhase (ho : s.op = .invsched) (hp : s.ph = .compute) (hk : s.ki.val = s.nk.last) :
    s.turnsLeft = { s with ki := 0, ph := .copy }.turnsLeft + 1 := by
  simp only [turnsLeft, ho, hp, hk, Fin.val_zero]
  omega

end State

/-- A phase over W or T takes at most 60 turns, a cipher operation at most 15. -/
theorem ControlSound.turnsLeft_bounds {s : State} (h : ControlSound s) (hb : s.busy = true) :
    1 ≤ s.turnsLeft ∧ s.turnsLeft ≤ 120 := by
  have hki := h.ki_within
  have hlast := s.nk.last_lt
  cases ho : s.op with
  | idle => exact absurd ho (h.busy_iff_op.mp hb)
  | expand =>
    rw [State.turnsLeft_expand ho]
    omega
  | cipher =>
    have hrc := h.rc_within
    have hnr := s.nk.nr_lt
    rw [State.turnsLeft_cipher ho]
    omega
  | invsched =>
    cases hp : s.ph with
    | compute =>
      rw [State.turnsLeft_compute ho hp]
      omega
    | copy =>
      rw [State.turnsLeft_copy ho hp]
      omega

/-- A turn of a busy CORE leaves one turn less, or is the last. -/
theorem CoreEffect.turnsLeft_cases {s t : State} (he : CoreEffect s t) (h : ControlSound s)
    (hb : s.busy = true) :
    (t.busy = true ∧ s.turnsLeft = t.turnsLeft + 1)
    ∨ (t.busy = false ∧ t.done = true ∧ s.turnsLeft = 1) := by
  have hki := h.ki_within
  have hrc := h.rc_within
  cases he with
  | hold ho => exact absurd ho (h.busy_iff_op.mp hb)
  | expandNext ho hk => exact .inl ⟨hb, State.turnsLeft_nextWord (.inl ho) hk⟩
  | expandEnd ho hk => exact .inr ⟨rfl, rfl, by rw [State.turnsLeft_expand ho]; omega⟩
  | cipherInit ho hr =>
    exact .inl ⟨hb, State.turnsLeft_nextRound ho (hr ▸ s.nk.nr_pos) (congrArg (· + 1) hr).symm⟩
  | cipherFull ho h0 hr => exact .inl ⟨hb, State.turnsLeft_nextRound ho hr (State.rc_add_one hr)⟩
  | cipherLast ho hr => exact .inr ⟨rfl, rfl, by rw [State.turnsLeft_cipher ho]; omega⟩
  | computeNext ho hp hk => exact .inl ⟨hb, State.turnsLeft_nextWord (.inr ho) hk⟩
  | computeEnd ho hp hk => exact .inl ⟨hb, State.turnsLeft_copyPhase ho hp (hki.antisymm hk)⟩
  | copyNext ho hp hk => exact .inl ⟨hb, State.turnsLeft_nextWord (.inr ho) hk⟩
  | copyEnd ho hp hk => exact .inr ⟨rfl, rfl, by rw [State.turnsLeft_copy ho hp]; omega⟩

theorem coreTurns_succ_of_next {s t : State} (h : coreStep s = .next t) (n : Nat) :
    coreTurns (n + 1) s = coreTurns n t := by
  rw [coreTurns, h, andThen_next]

/-- By induction on the turns that are left: busy before the last of them, done after it. -/
theorem ControlSound.coreTurns_of_turnsLeft {n : Nat} {s : State} (h : ControlSound s)
    (hb : s.busy = true) (hn : s.turnsLeft = n) :
    (∀ m, m < n → ∃ t, coreTurns m s = .next t ∧ t.busy = true ∧ t.done = false)
    ∧ ∃ t, coreTurns n s = .next t ∧ t.busy = false ∧ t.done = true := by
  induction n generalizing s with
  | zero =>
    have hpos := (h.turnsLeft_bounds hb).1
    omega
  | succ n ih =>
    have hnow : ∃ t, coreTurns 0 s = .next t ∧ t.busy = true ∧ t.done = false :=
      ⟨s, rfl, hb, Bool.eq_false_iff.mpr fun hd => h.not_busy_and_done ⟨hb, hd⟩⟩
    obtain ⟨t, hstep⟩ := coreStep_next s
    have he : CoreEffect s t := coreStep_effect hstep
    rw [coreTurns_succ_of_next hstep]
    obtain ⟨hbt, hleft⟩ | ⟨hbt, hdt, hleft⟩ := he.turnsLeft_cases h hb
    · obtain ⟨hbefore, hend⟩ := ih (he.controlSound h) hbt (by omega)
      refine ⟨fun m hm => ?_, hend⟩
      cases m with
      | zero => exact hnow
      | succ m =>
        rw [coreTurns_succ_of_next hstep]
        exact hbefore m (by omega)
    · obtain rfl : n = 0 := by omega
      refine ⟨fun m hm => ?_, t, rfl, hbt, hdt⟩
      obtain rfl : m = 0 := by omega
      exact hnow

end Sys2Proof.Machine

namespace Sys2Proof.Proofs

open Sys2Proof.Machine

/-- Settles O44: the count is `State.turnsLeft`, and each turn of the CORE takes one off it. -/
theorem operationEndsAfterItsCount : Obligations.OperationEndsAfterItsCount := by
  intro s hs hb n
  have hn : s.turnsLeft = n := rfl
  obtain ⟨hbefore, hend⟩ := hs.coreTurns_of_turnsLeft hb hn
  exact ⟨hbefore, hend, hn ▸ hs.turnsLeft_bounds hb⟩

end Sys2Proof.Proofs

/-! Reset, and one clock edge (70_reset_and_hazards.md R220, R240). -/

namespace Sys2Proof.Machine

theorem State.readPort_beginCycle (s : State) (p : Pins) (a : Addr) :
    (s.beginCycle p).readPort a = s.readPort a := rfl

/-! ### The cycle with reset -/

theorem hostCycle_reset {p : Pins} (hr : p.rst = true) (s : State) :
    hostCycle p s = .next (s.beginCycle p).applyReset :=
  if_pos hr

theorem State.resetRdata_idle {s : State} (hs : s.pins.sel = false) : s.resetRdata = 0 := by
  simp [State.resetRdata, hs]

theorem State.resetRdata_read {s : State} (hs : s.pins.sel = true) (hw : s.pins.we = false) :
    s.resetRdata = s.readPort s.pins.addr := by
  simp [State.resetRdata, hs, hw]

/-! ### The clock edge -/

/-- What a host cycle while BUSY = 1 leaves in ERR, ERRCODE and `rdata`, by its pins. -/
theorem hostCycle_of_busy_port {p : Pins} {s : State} (hb : s.busy = true) (hr : p.rst = false) :
    ∃ e x r, hostCycle p s = .next (s.withPort e x p r (s.fresh + 1))
      ∧ (p.sel = true → p.we = true → e = true ∧ x = if s.err then s.errcode else some .busyViolation)
      ∧ (p.sel = true → p.we = false → r = s.readPort p.addr ∧ e = s.err)
      ∧ (p.sel = false → r = 0 ∧ e = s.err) := by
  cases hs : p.sel with
  | false => exact ⟨_, _, _, hostCycle_idle hr hs s, by simp, by simp, fun _ => ⟨rfl, rfl⟩⟩
  | true =>
    cases hw : p.we with
    | false => exact ⟨_, _, _, hostCycle_read hr hs hw s, by simp, fun _ _ => ⟨rfl, rfl⟩, by simp⟩
    | true =>
      have hrefused : hostCycle p s = .next ((s.beginCycle p).raise .busyViolation) :=
        (hostCycle_write hr hs hw s).trans (execWr_of_busy (s := s.beginCycle p) hb _ _)
      exact ⟨_, _, _, hrefused, fun _ _ => ⟨rfl, rfl⟩, by simp, by simp⟩

theorem clockEdge_of_rst {p : Pins} (hr : p.rst = true) (s : State) : clockEdge p s = hostCycle p s := by
  simp [clockEdge, hr]

theorem clockEdge_of_idle {s : State} (hb : s.busy = false) (p : Pins) :
    clockEdge p s = hostCycle p s := by
  simp [clockEdge, hb]

theorem clockEdge_of_busy {p : Pins} {s : State} (hb : s.busy = true) (hr : p.rst = false) :
    clockEdge p s = andThen (hostCycle p s) coreStep := by
  simp [clockEdge, hb, hr]

/-- The micro-step goes as it would have gone without the port's operation, and keeps what that one left. -/
theorem clockEdge_of_withPort {p : Pins} {s c : State} {e : Bool} {x : Option Cause} {r : Word} {n : Nat}
    (hb : s.busy = true) (hr : p.rst = false) (hcycle : hostCycle p s = .next (s.withPort e x p r n))
    (hcore : coreStep s = .next c) : clockEdge p s = .next (c.withPort e x p r n) := by
  rw [clockEdge_of_busy hb hr, hcycle, andThen_next]
  exact ((coreStep_effect hcore).withPort e x p r n).coreStep_eq

end Sys2Proof.Machine

namespace Sys2Proof.Proofs

open Sys2Proof.Machine

/-- Settles O51: while BUSY = 1 the host cycle writes only what no micro-step reads or writes. -/
theorem clockEdgePriority : Obligations.ClockEdgePriority := by
  refine fun p s => ⟨fun hr => clockEdge_of_rst hr s, fun hb => clockEdge_of_idle hb p, fun hr hb => ?_⟩
  obtain ⟨c, hcore⟩ := coreStep_next s
  obtain ⟨e, x, r, hcycle, hwrite, hread, hidle⟩ := hostCycle_of_busy_port hb hr
  exact ⟨c, _, hcore, clockEdge_of_withPort hb hr hcycle hcore, rfl, hwrite, hread, hidle⟩

/-- Settles O50: the reset of a cycle that has begun, with the `rdata` that its pins ask for. -/
theorem resetCycleGivesTheResetState : Obligations.ResetCycleGivesTheResetState := by
  refine fun p s hr => ⟨(s.beginCycle p).resetRdata, hostCycle_reset hr s,
    fun hs => State.resetRdata_idle hs, fun hs hw => ⟨s.driveRdata (s.readPort p.addr), rfl, ?_⟩⟩
  rw [State.resetRdata_read (s := s.beginCycle p) hs hw, State.driveRdata_rdata]
  exact s.readPort_beginCycle p p.addr

end Sys2Proof.Proofs
